-- ==== Sys2Proof/Word.lean ====
section
/-! DEFINITION. The plain words of the DZ7140 model: bytes, domain numbers, and numbered tables. -/

namespace Sys2Proof

/-- One byte of a record or of a frame. -/
abbrev Byte := BitVec 8

/-- A software domain, D0 to D7 (00_scope, Names and numbers). -/
abbrev Domain := Fin 8

/-- A table with numbered places of which some are filled: a place that is not listed is empty
(an ABSENT slot, an absent cell, an invalid entry, a FREE slot). The canonical form lists the
numbers strictly rising, so equal tables are equal data. -/
abbrev Table (α : Type) := List (Nat × α)

end Sys2Proof
end

