-- ==== Sys2Proof/Syntax.lean ====
section
/-! DEFINITION. The happenings of the DZ7140: one constructor for each row of spec/opcode_table.json. -/

namespace Sys2Proof

/-- The happenings that the part takes, one constructor per row of the opcode table. Records come as the
bits of their bytes in order: byte `k` of a record is bits `8k` to `8k+7` (11_record_frame_and_register_layouts).
The parameter bytes of a command are those of its submission entry, not yet judged (R193). -/
inductive Instr where
  /-- VOTE (R135, R136): parameter bytes 8, 9 and 10 of the entry. -/
  | vote (d : Domain) (tag : BitVec 16) (await : Bool) (deadline : BitVec 16) (resource level setpoint : Byte)
  /-- VOTE_LIST (R137, R138): byte 8 is the count, bytes 9 to 26 are the six entries of three bytes each. -/
  | voteList (d : Domain) (tag : BitVec 16) (await : Bool) (deadline : BitVec 16) (count : Byte) (entries : BitVec 144)
  /-- WITHDRAW (R139): byte 8, a resource or 0xFF for all. -/
  | withdraw (d : Domain) (tag : BitVec 16) (resource : Byte)
  /-- POSTURE (R119, R140): byte 8, the posture code. -/
  | posture (d : Domain) (tag : BitVec 16) (code : Byte)
  /-- RENEW (R121, R140). -/
  | renew (d : Domain) (tag : BitVec 16)
  /-- QUERY (R141, R142): byte 8, the resource. -/
  | query (d : Domain) (tag : BitVec 16) (fresh : Bool) (deadline : BitVec 16) (resource : Byte)
  /-- FENCE (R143). -/
  | fence (d : Domain) (tag : BitVec 16) (deadline : BitVec 16)
  /-- GRANT (R125, R147): byte 8, the entry number; bytes 16 to 23, the grant record. -/
  | grant (d : Domain) (tag : BitVec 16) (entry : Byte) (record : BitVec 64)
  /-- REVOKE (R125, R147): byte 8, the entry number. -/
  | revoke (d : Domain) (tag : BitVec 16) (entry : Byte)
  /-- SET_DOMAIN (R128, R148): bytes 8 to 11. -/
  | setDomain (d : Domain) (tag : BitVec 16) (target weight leasePeriod enable : Byte)
  /-- CLEAR_FAULT (R91, R149): byte 8, the resource. -/
  | clearFault (d : Domain) (tag : BitVec 16) (deadline : BitVec 16) (resource : Byte)
  /-- CLEAR_SAFE (R90, R150). -/
  | clearSafe (d : Domain) (tag : BitVec 16)
  /-- RELEASE_HOLD (R144): byte 8, a resource or 0xFF for all. -/
  | releaseHold (d : Domain) (tag : BitVec 16) (resource : Byte)
  /-- CONFIG_RESOURCE (R145, R146): byte 8, the slot; bit 0 of byte 9; bytes 16 to 31, the resource record. -/
  | configResource (d : Domain) (tag : BitVec 16) (slot : Byte) (carried : Bool) (record : BitVec 128)
  /-- A NOTIFY write of kind SQ_TAIL (R169). -/
  | sqTail (d : Domain) (index : Byte)
  /-- A NOTIFY write of kind CQ_HEAD (R170). -/
  | cqHead (d : Domain) (index : Byte)
  /-- A NOTIFY write of kind EVENT_HEAD (R179). -/
  | eventHead (index : Byte)
  /-- A write to CB_ADDRESS_LOW (R184). -/
  | cbAddressLow (value : BitVec 32)
  /-- A write to CB_ADDRESS_HIGH (R184). -/
  | cbAddressHigh (value : BitVec 32)
  /-- A CONTROL write with RUN 1 and SOFT_RESET 0 (R183). -/
  | runSet
  /-- A CONTROL write with RUN 0 and SOFT_RESET 0 (R183). -/
  | runClear
  /-- A CONTROL write with SOFT_RESET 1 and the RUN bit as given (R183). -/
  | softReset (run : Bool)
  /-- A register write that is ignored (R168, R196). -/
  | registerWriteIgnored (offset value : BitVec 32)
  /-- The reset pin (R191). -/
  | hardwareReset
  /-- The outstanding load read number `read` (0 the oldest), a header read, returns its 32 bytes (R185). -/
  | loadHeaderData (read : Nat) (data : BitVec 256)
  /-- The outstanding load read number `read`, a read of the rest of the block, returns its 1,540 bytes (R187). -/
  | loadBodyData (read : Nat) (data : BitVec 12320)
  /-- The outstanding load read number `read` returns a bus error (R185). -/
  | loadBusError (read : Nat)
  /-- The move from ALIGNING to RUNNING (R188). -/
  | endOfAlignment
  /-- The move from STOPPING to STOPPED (R190). -/
  | endOfStopping
  /-- An allocation of step slots (R56). -/
  | allocation
  /-- A grant of the link (R101). -/
  | linkGrant
  /-- An answer frame on the forward path (R99). -/
  | answer (frame : List Byte)
  /-- The response timer expires (R99). -/
  | responseTimeout
  /-- The settle timer of a step slot expires (R61). -/
  | settleTimeout (slot : Nat)
  /-- The hold timer of a step slot expires (R64). -/
  | holdExpiry (slot : Nat)
  /-- A notice frame begins to arrive (R103). -/
  | noticeFrameStart
  /-- A notice frame ends (R104). -/
  | noticeArrival (frame : List Byte)
  /-- The notice at the head of the Notice FIFO is taken (R105). -/
  | noticeTake
  /-- The poll period timer expires (R106). -/
  | pollPeriodExpiry
  /-- A domain's lease reaches 0 (R122). -/
  | leaseExpiry (d : Domain)
  /-- The deadline timer of a waiter entry expires (R157). -/
  | deadlineExpiry (entry : Nat)
  /-- The intake arbiter grants the fetch engine (R172). -/
  | intakeGrant
  /-- The read of the submission entry returns its 32 bytes (R173). -/
  | fetchData (data : BitVec 256)
  /-- The read of the submission entry returns a bus error (R173). -/
  | fetchBusError
  /-- The outcome of the outstanding write number `write` (0 the oldest), one of a domain's queue (R175). -/
  | queueWriteOutcome (write : Nat) (busError : Bool)
  /-- The outcome of the outstanding write number `write`, one of the event ring (R180). -/
  | eventWriteOutcome (write : Nat) (busError : Bool)
  deriving DecidableEq, Repr

end Sys2Proof
end

