-- ==== Sys2Proof/WellFormed.lean ====
section
/-! DEFINITION. Which happenings are well formed: the operands stand in the ranges that the spec gives the thing they name. -/

namespace Sys2Proof

/-- The register writes that R196 and R168 say are ignored: STATUS, every offset from 0x14 on, and NOTIFY with kind 0
(bits 12 and 13). -/
def ignoredWrite (offset value : BitVec 32) : Bool :=
  offset == 0x04#32 || decide (0x14 ≤ offset.toNat) || (offset == 0x10#32 && value.extractLsb' 12 2 == 0#2)

/-- Step slots are numbered 0 to 3 (R48), waiter entries 0 to 31 (R151), and an ignored write is one that R196 ignores.
Every other operand takes every value of its type: a command's parameter bytes are judged when the command is taken (R193),
and frames when they arrive (R195). -/
def wellFormed : Instr → Bool
  | .vote _ _ _ _ _ _ _ => true
  | .voteList _ _ _ _ _ _ => true
  | .withdraw _ _ _ => true
  | .posture _ _ _ => true
  | .renew _ _ => true
  | .query _ _ _ _ _ => true
  | .fence _ _ _ => true
  | .grant _ _ _ _ => true
  | .revoke _ _ _ => true
  | .setDomain _ _ _ _ _ _ => true
  | .clearFault _ _ _ _ => true
  | .clearSafe _ _ => true
  | .releaseHold _ _ _ => true
  | .configResource _ _ _ _ _ => true
  | .sqTail _ _ => true
  | .cqHead _ _ => true
  | .eventHead _ => true
  | .cbAddressLow _ => true
  | .cbAddressHigh _ => true
  | .runSet => true
  | .runClear => true
  | .softReset _ => true
  | .registerWriteIgnored offset value => ignoredWrite offset value
  | .hardwareReset => true
  | .loadHeaderData _ _ => true
  | .loadBodyData _ _ => true
  | .loadBusError _ => true
  | .endOfAlignment => true
  | .endOfStopping => true
  | .allocation => true
  | .linkGrant => true
  | .answer _ => true
  | .responseTimeout => true
  | .settleTimeout slot => decide (slot < 4)
  | .holdExpiry slot => decide (slot < 4)
  | .noticeFrameStart => true
  | .noticeArrival _ => true
  | .noticeTake => true
  | .pollPeriodExpiry => true
  | .leaseExpiry _ => true
  | .deadlineExpiry entry => decide (entry < 32)
  | .intakeGrant => true
  | .fetchData _ => true
  | .fetchBusError => true
  | .queueWriteOutcome _ _ => true
  | .eventWriteOutcome _ _ => true

end Sys2Proof
end

