-- ==== Sys2Proof/Decode.lean ====
section
/-! DEFINITION. The decoder of instruction words: the opcode table gives no row any bits, so no word spells a command. Register writes
are decoded by Machine.decodeRegisterWrite and submission entries by Machine.entryCommand. -/

namespace Sys2Proof

/-- The command that a word spells by the table's bits: none, since no row of the table has bits (entry 17). -/
def decodeTableWord (_nbits _w : Nat) : Option Instr := none

end Sys2Proof
end

