-- ==== Sys2Proof/Config.lean ====
section
/-! DEFINITION. The fixed numbers of the DZ7140 (00_scope, CAPACITIES and Time units). The manual leaves no value open, so there is no
free value here. -/

namespace Sys2Proof.Config

/-- The eight software domains, in increasing number. -/
def allDomains : List Domain := [0, 1, 2, 3, 4, 5, 6, 7]

/-- Resource slots (R1). -/
def resourceSlots : Nat := 64
/-- Step slots (R48). -/
def stepSlots : Nat := 4
/-- Waiter entries (R151). -/
def waiterEntries : Nat := 32
/-- Grant entries (R123). -/
def grantEntries : Nat := 32
/-- Notices that the Notice FIFO holds at most (R95). -/
def noticeCapacity : Nat := 16
/-- The longest parent chain, in resources (R7). -/
def chainLimit : Nat := 8
/-- Bytes of a control block of version 1 (10.3). -/
def controlBlockBytes : Nat := 1572
/-- The Dazisen control block signature (11.1). -/
def signature : Nat := 0x42435A44

/-- Timers count units of 10 µs, the finest unit of the manual (DESIGN CHOICE, entry 1). A millisecond has 100. -/
def unitsPerMs : Nat := 100
/-- The response timer starts at 200 µs (R95). -/
def responseUnits : Nat := 20
/-- The settle limit counts 50 µs (R9). -/
def settleUnits : Nat := 5
/-- The hold counts 10 µs (R9). -/
def holdUnits : Nat := 1
/-- The lease period counts 100 ms (R120). -/
def leaseUnits : Nat := 10000

end Sys2Proof.Config
end

