-- ==== Sys2Proof/Machine/State.lean ====
section
/-! DEFINITION. The state of the DZ7140, block by block (00_scope, BLOCK DIAGRAM), as plain data, and the state after reset. -/

namespace Sys2Proof.Machine

/-! ## Names -/

/-- The three levels of a power resource (00_scope, Levels). -/
inductive Level where
  | off | retain | on
  deriving DecidableEq, Repr

/-- The kinds of resource (R2). -/
inductive Kind where
  | rail | clock | gate
  deriving DecidableEq, Repr

/-- The fault policies (R12). -/
inductive Policy where
  | report | cut | trip
  deriving DecidableEq, Repr

/-- The postures of an enabled domain (R116). -/
inductive Posture where
  | active | drowsy | detached
  deriving DecidableEq, Repr

/-- The conditions of a present resource (R20 to R22). ABSENT is the condition of a slot that the Resource Table does not list. -/
inductive Condition where
  | steady | waiting | stepping | locked | clearing
  deriving DecidableEq, Repr

/-- The fault kinds (R17, R74, R75). -/
inductive FaultKind where
  | overcurrent | undervolt | overtemp | noSettle | noResponse | refused
  deriving DecidableEq, Repr

/-- The run states (R182). -/
inductive RunState where
  | stopped | loading | aligning | running | stopping
  deriving DecidableEq, Repr

/-- The load error codes (R186). -/
inductive LoadError where
  | none | signature | version | checksum | range | endpointDup | parentBad | cycle | depth | initialOrder | mask | d0Disabled
  | ring | bus
  deriving DecidableEq, Repr

/-- The queue states (R166). -/
inductive QueueState where
  | enabled | halted | disabled
  deriving DecidableEq, Repr

/-- The three status flags of a sample, of an ALERT and of a FAULT event (R74, R97). -/
structure Flags where
  overcurrent : Bool
  undervolt   : Bool
  overtemp    : Bool
  deriving DecidableEq, Repr

/-- A level mask: OFF is in every mask (R3). -/
structure Mask where
  retain : Bool
  on     : Bool
  deriving DecidableEq, Repr

/-- A level and, where one is in force, a setpoint: the contents of a vote cell (R25), a target (2.3), the from and to
values of a step (R48). -/
structure Setting where
  level    : Level
  setpoint : Option Nat
  deriving DecidableEq, Repr

/-! ## Resource Table -/

/-- The configuration fields of a present resource (1.2). A GATE has no nominal setpoint and no slew (R2). -/
structure ResourceConfig where
  kind        : Kind
  mask        : Mask
  endpoint    : Nat
  channel     : Nat
  parents     : List Nat
  nominal     : Option Nat
  slew        : Option Nat
  settleLimit : Nat
  hold        : Nat
  retryLimit  : Nat
  sleepMap    : Level
  detachMap   : Level
  policy      : Policy
  initial     : Level
  deriving DecidableEq, Repr

/-- The readings that a SAMPLE returns (R97). -/
structure Reading where
  voltage : Nat
  current : Nat
  flags   : Flags
  deriving DecidableEq, Repr

/-- The last sample and its sample time, which has a meaning only beside a sample (R18). -/
structure Sample where
  reading : Reading
  time    : BitVec 32
  deriving DecidableEq, Repr

/-- A present slot of the Resource Table: its configuration and its runtime fields (R1, 1.4). The on-Cut-List field is computed
from the Cut List (R19). -/
structure Resource where
  cfg        : ResourceConfig
  level      : Level
  setpoint   : Option Nat
  cond       : Condition
  alignOwed  : Bool
  lastFault  : Option FaultKind
  faultCount : Nat
  lastSample : Option Sample
  deriving DecidableEq, Repr

/-! ## Domain Table and Grant Table -/

/-- A domain record (R114). The lease remaining counts units of 10 µs, and `none` is a stopped lease (R120). -/
structure DomainRec where
  enabled     : Bool
  posture     : Option Posture
  weight      : Nat
  leasePeriod : Nat
  lease       : Option Nat
  deriving DecidableEq, Repr

/-- A valid grant entry (R123). -/
structure Grant where
  domain   : Nat
  idBase   : Nat
  idMask   : Nat
  maxLevel : Level
  cap      : Nat
  deriving DecidableEq, Repr

/-! ## Sequencer -/

/-- The direction of a step (R48). -/
inductive Direction where
  | raise | lower | setpoint
  deriving DecidableEq, Repr

/-- The purpose of a step (R48). -/
inductive Purpose where
  | normal | align
  deriving DecidableEq, Repr

/-- The state of a step with the timer it runs (R49), in units of 10 µs. -/
inductive StepState where
  | awaitingLink
  | issued
  | settling (timer : Nat)
  | holding (timer : Nat)
  deriving DecidableEq, Repr

/-- A step record (R48): `origin` and `goal` are its from and to values. -/
structure Step where
  resource  : Nat
  direction : Direction
  purpose   : Purpose
  origin    : Setting
  goal      : Setting
  retries   : Nat
  early     : Bool
  state     : StepState
  deriving DecidableEq, Repr

/-! ## Link Controller -/

/-- Who asks for the link and takes the outcome (R95). -/
inductive Requester where
  | step (slot : Nat)
  | cutList
  | clear (resource : Nat)
  | query (entry : Nat)
  | poller
  deriving DecidableEq, Repr

/-- The classes of the link arbiter (R101). -/
inductive LinkClass where
  | urgent | step | clear | sample | poll
  deriving DecidableEq, Repr

/-- A request for the link: every request names a requester and a resource slot (R102). A POLL request that has not chosen its
resource names the slot of the cursor. -/
structure Request where
  requester : Requester
  resource  : Nat
  deriving DecidableEq, Repr

/-- The kinds of transaction (R95). -/
inductive TransactionKind where
  | set | sample | clear
  deriving DecidableEq, Repr

/-- The record of the transaction in flight (R95). `requester` is `none` once the requester no longer exists (R100); `voided`
says that the slot was reconfigured while a SAMPLE was on the link (R111); `frame` is the frame that was sent (R195; the
model's own, DESIGN CHOICE, entry 11). -/
structure Transaction where
  kind      : TransactionKind
  endpoint  : Nat
  channel   : Nat
  cls       : LinkClass
  requester : Option Requester
  resource  : Nat
  timer     : Nat
  voided    : Bool
  frame     : List Byte
  deriving DecidableEq, Repr

/-- What a notice says (R103). -/
inductive NoticeKind where
  | settled
  | alert (flags : Flags)
  deriving DecidableEq, Repr

/-- A notice in the FIFO (R103). -/
structure Notice where
  endpoint : Nat
  channel  : Nat
  kind     : NoticeKind
  deriving DecidableEq, Repr

/-- The poller's current poll (R107). -/
structure CurrentPoll where
  resource : Nat
  attempts : Nat
  deriving DecidableEq, Repr

/-- The Link Controller (chapter 5). `transaction` is `none` while the link is IDLE. `requests` stand oldest first.
`receiving` is the notice frame in reception and whether it began while the credit was open. -/
structure LinkController where
  transaction : Option Transaction
  requests    : List Request
  notices     : List Notice
  receiving   : Option Bool
  pollPeriod  : Nat
  pollTimer   : Option Nat
  pollPending : Bool
  cursor      : Nat
  currentPoll : Option CurrentPoll
  deriving DecidableEq, Repr

/-! ## Fault Unit -/

/-- The resource and fault kind that entered SAFE (R87). -/
structure TripCause where
  resource : Nat
  kind     : FaultKind
  deriving DecidableEq, Repr

/-- An entry of the Cut List (R83). -/
structure CutEntry where
  resource : Nat
  attempts : Nat
  deriving DecidableEq, Repr

/-- The Fault Unit (chapter 4). `clears` holds, for each resource with a clear record, its attempts used. -/
structure FaultUnit where
  safe      : Bool
  tripCause : Option TripCause
  cutList   : List CutEntry
  clears    : Table Nat
  deriving DecidableEq, Repr

/-! ## Waiter Table -/

/-- The kind of a waiter with its covered set and what it carries (R151). -/
inductive WaiterBody where
  | vote (resource : Nat) (voted : Setting)
  | list (voted : Table Setting)
  | fence (set : List Nat)
  | query (resource : Nat) (attempts : Nat)
  | clear (resource : Nat)
  deriving DecidableEq, Repr

/-- A waiter (R151). The deadline counts units of 10 µs; `none` is no deadline. -/
structure Waiter where
  domain   : Domain
  tag      : BitVec 16
  body     : WaiterBody
  deadline : Option Nat
  deriving DecidableEq, Repr

/-! ## Queue Engine -/

/-- A domain's ring descriptor (R165). -/
structure RingDescriptor where
  sqBase  : BitVec 64
  sqSize  : Nat
  cqBase  : BitVec 64
  cqSize  : Nat
  msgAddr : BitVec 64
  msgData : BitVec 32
  deriving DecidableEq, Repr

/-- A domain's queue: its descriptor and runtime values (R165, R166). `cqPhase` is the phase as a bit. -/
structure Queue where
  desc         : Option RingDescriptor
  sqTail       : Nat
  sqHead       : Nat
  cqTail       : Nat
  cqHead       : Nat
  cqPhase      : Bool
  reservations : Nat
  armed        : Bool
  state        : QueueState
  deriving DecidableEq, Repr

/-- The fetch record (R173): the domain, its SQ head index, the address of the 32-byte read asked of the Host Port for it, and whether the
fetch is void. A void fetch keeps the engine busy and is discarded when its outcome returns. -/
structure Fetch where
  domain : Domain
  index  : Nat
  addr   : BitVec 64
  void   : Bool
  deriving DecidableEq, Repr

/-- The intake arbiter and its fetch engine (R172, R173). -/
structure Intake where
  current : Domain
  turn    : Nat
  fetch   : Option Fetch
  deriving DecidableEq, Repr

/-- The event ring descriptor (R177). -/
structure EventDescriptor where
  base    : BitVec 64
  size    : Nat
  msgAddr : BitVec 64
  msgData : BitVec 32
  deriving DecidableEq, Repr

/-- The event ring (R177). -/
structure EventRing where
  desc    : Option EventDescriptor
  tail    : Nat
  head    : Nat
  phase   : Bool
  dropped : Nat
  armed   : Bool
  enabled : Bool
  deriving DecidableEq, Repr

/-! ## Host Port and Run Control -/

/-- Which part of the control block a load read asks for (R185). -/
inductive LoadPart where
  | header | body
  deriving DecidableEq, Repr

/-- A load read whose outcome has not returned. It is not live once its load was abandoned (R185). -/
structure LoadRead where
  part : LoadPart
  addr : BitVec 64
  live : Bool
  deriving DecidableEq, Repr

/-- Whose write a memory write is (R175, R180). -/
inductive WriteOwner where
  | queue (d : Domain)
  | events
  deriving DecidableEq, Repr

/-- A memory write asked of the Host Port whose outcome has not returned. It is not live once its outcome no longer counts
(R175, R180). -/
structure HostWrite where
  owner : WriteOwner
  addr  : BitVec 64
  data  : List Byte
  live  : Bool
  deriving DecidableEq, Repr

/-- The bus-master engine: outstanding load reads and writes, oldest first. -/
structure HostPort where
  loadReads : List LoadRead
  writes    : List HostWrite
  deriving DecidableEq, Repr

/-- Run Control (chapter 10). `subTick` counts units of 10 µs inside the current ms and `loadHeader` holds the header between the
two reads of a load (both the model's own, DESIGN CHOICE, entries 1 and 19). -/
structure RunControl where
  state        : RunState
  loadError    : LoadError
  resetRefused : Bool
  runTime      : BitVec 32
  subTick      : Nat
  cbAddr       : BitVec 64
  loadHeader   : BitVec 256
  deriving DecidableEq, Repr

/-! ## The whole part -/

/-- The state of the part, one field per block or table, and the queue of happenings that wait to be taken. -/
structure State where
  run       : RunControl
  host      : HostPort
  resources : Table Resource
  votes     : Vector (Table Setting) 8
  holds     : Table Level
  domains   : Vector DomainRec 8
  grants    : Table Grant
  steps     : Table Step
  link      : LinkController
  fault     : FaultUnit
  waiters   : Table Waiter
  queues    : Vector Queue 8
  intake    : Intake
  events    : EventRing
  pending   : List Instr
  deriving DecidableEq, Repr

/-- Nothing in the spec stops the part: a fault of a power resource is an effect on state (R76), a bus error halts a queue or fails
a load (R176, R185). So there is no fault, which is safe. -/
inductive Fault where
  deriving DecidableEq, Repr

/-- Why a happening has no meaning. -/
inductive Refusal where
  /-- Raised by `exec` for a row of the table whose meaning is not written; no arm raises it. Safe. -/
  | notModelled (mnemonic : String)
  deriving DecidableEq, Repr

/-! ## Reset -/

/-- Run Control after hardware reset (R182, R183, R184, R191). -/
def resetRun : RunControl :=
  { state := .stopped, loadError := .none, resetRefused := false, runTime := 0, subTick := 0, cbAddr := 0, loadHeader := 0 }

/-- A domain record after reset (R115). -/
def resetDomain : DomainRec :=
  { enabled := false, posture := none, weight := 1, leasePeriod := 0, lease := none }

/-- A queue after reset (R165, R166). -/
def resetQueue : Queue :=
  { desc := none, sqTail := 0, sqHead := 0, cqTail := 0, cqHead := 0, cqPhase := true, reservations := 0, armed := false,
    state := .disabled }

/-- The Link Controller after reset (R113). -/
def resetLink : LinkController :=
  { transaction := none, requests := [], notices := [], receiving := none, pollPeriod := 0, pollTimer := none,
    pollPending := false, cursor := 0, currentPoll := none }

/-- The Fault Unit after reset (R94). -/
def resetFault : FaultUnit :=
  { safe := false, tripCause := none, cutList := [], clears := [] }

/-- The intake arbiter after reset (R172, R173). -/
def resetIntake : Intake := { current := 0, turn := 0, fetch := none }

/-- The event ring after reset (R177). -/
def resetEvents : EventRing :=
  { desc := none, tail := 0, head := 0, phase := true, dropped := 0, armed := false, enabled := false }

/-- The machine right after hardware reset (R191): every slot ABSENT, every cell absent, every domain disabled, nothing in flight. -/
def State.reset : State :=
  { run := resetRun
    host := { loadReads := [], writes := [] }
    resources := []
    votes := Vector.replicate 8 []
    holds := []
    domains := Vector.replicate 8 resetDomain
    grants := []
    steps := []
    link := resetLink
    fault := resetFault
    waiters := []
    queues := Vector.replicate 8 resetQueue
    intake := resetIntake
    events := resetEvents
    pending := [] }

end Sys2Proof.Machine
end

