-- ==== Sys2Proof/Machine/Operands.lean ====
section
/-! DEFINITION. Reading the bytes of records and frames (11_record_frame_and_register_layouts). -/

namespace Sys2Proof.Machine

/-! ## Bytes -/

/-- Byte `k` of a record given as the bits of its bytes in order. -/
def byteOf {n : Nat} (x : BitVec n) (k : Nat) : Nat := (x.extractLsb' (8 * k) 8).toNat

/-- The little-endian field of `len` bytes at offset `k`. -/
def fieldOf {n : Nat} (x : BitVec n) (k len : Nat) : Nat := (x.extractLsb' (8 * k) (8 * len)).toNat

/-- The `n` bytes of a number, least significant first (chapter 11). -/
def bytesLE (n v : Nat) : List Byte := (List.range n).map fun i => BitVec.ofNat 8 (v >>> (8 * i))

/-- The exclusive-or of the bytes of a frame (11.4). -/
def xorAll (frame : List Byte) : Byte := frame.foldl (· ^^^ ·) 0

/-! ## Codes -/

/-- The level of a code: 1 OFF, 2 RETAIN, 3 ON; no other code is a level (chapter 11). -/
def levelOfCode : Nat → Option Level
  | 1 => some .off
  | 2 => some .retain
  | 3 => some .on
  | _ => none

/-- The code of a level (chapter 11). -/
def levelCode : Level → Nat
  | .off => 1
  | .retain => 2
  | .on => 3

/-- The posture of a code (11.2, POSTURE). -/
def postureOfCode : Nat → Option Posture
  | 1 => some .active
  | 2 => some .drowsy
  | 3 => some .detached
  | _ => none

/-- The code of a posture (11.3). -/
def postureCode : Posture → Nat
  | .active => 1
  | .drowsy => 2
  | .detached => 3

/-- The kind of a code (11.1, resource record). -/
def kindOfCode : Nat → Option Kind
  | 1 => some .rail
  | 2 => some .clock
  | 3 => some .gate
  | _ => none

/-- The fault policy of a code (11.1, resource record). -/
def policyOfCode : Nat → Option Policy
  | 1 => some .report
  | 2 => some .cut
  | 3 => some .trip
  | _ => none

/-- The fault kind codes (11.3). -/
def faultKindCode : FaultKind → Nat
  | .overcurrent => 1
  | .undervolt => 2
  | .overtemp => 3
  | .noSettle => 4
  | .noResponse => 5
  | .refused => 6

/-- The condition codes of a QUERY result (11.2). -/
def conditionCode : Condition → Nat
  | .steady => 1
  | .waiting => 2
  | .stepping => 3
  | .locked => 4
  | .clearing => 5

/-- The load error codes (11.3). -/
def loadErrorCode : LoadError → Nat
  | .none => 0
  | .signature => 1
  | .version => 2
  | .checksum => 3
  | .range => 4
  | .endpointDup => 5
  | .parentBad => 6
  | .cycle => 7
  | .depth => 8
  | .initialOrder => 9
  | .mask => 10
  | .d0Disabled => 11
  | .ring => 12
  | .bus => 13

/-- The run state codes of STATUS (11.5). -/
def runStateCode : RunState → Nat
  | .stopped => 0
  | .loading => 1
  | .aligning => 2
  | .running => 3
  | .stopping => 4

/-- The completion statuses (7.7). -/
inductive Status where
  | done | satisfied | denied | badCommand | badResource | waitersFull | safe | locked | superseded | revoked | timedOut
  | faulted | inUse | notPermitted | detached | stopped
  deriving DecidableEq, Repr

/-- The status codes (11.3). -/
def statusCode : Status → Nat
  | .done => 0x00
  | .satisfied => 0x01
  | .denied => 0x02
  | .badCommand => 0x03
  | .badResource => 0x04
  | .waitersFull => 0x05
  | .safe => 0x06
  | .locked => 0x07
  | .superseded => 0x08
  | .revoked => 0x09
  | .timedOut => 0x0A
  | .faulted => 0x0B
  | .inUse => 0x0C
  | .notPermitted => 0x0D
  | .detached => 0x0E
  | .stopped => 0x0F

/-! ## Setpoints and votes -/

/-- The highest setpoint of a kind that carries one (R2). -/
def setpointLimit : Kind → Nat
  | .rail => 31
  | .clock => 7
  | .gate => 0

/-- Check 3 of R135: the level byte is a level; the setpoint is present exactly when the level is ON and the resource is RAIL or
CLOCK, and then in the kind's range. A setpoint byte of 0xFF is an absent setpoint (chapter 11). The vote's contents are given
when it is well formed. -/
def voteOf (kind : Kind) (level setpoint : Nat) : Option Setting :=
  match levelOfCode level with
  | none => none
  | some l =>
    if l = .on ∧ kind ≠ .gate then
      if setpoint ≤ setpointLimit kind then some { level := l, setpoint := some setpoint } else none
    else
      if setpoint = 0xFF then some { level := l, setpoint := none } else none

/-- One entry of a VOTE_LIST as its three bytes (11.2). -/
structure ListEntry where
  resource : Nat
  level    : Nat
  setpoint : Nat
  deriving DecidableEq, Repr

/-- Entry `k` of a VOTE_LIST's entry bytes (11.2). -/
def listEntry (entries : BitVec 144) (k : Nat) : ListEntry :=
  { resource := byteOf entries (3 * k), level := byteOf entries (3 * k + 1), setpoint := byteOf entries (3 * k + 2) }

/-- The entries that a count of 1 to 6 names; entries at and beyond the count are not read (R193). -/
def listEntries (entries : BitVec 144) (count : Nat) : List ListEntry := (List.range count).map (listEntry entries)

/-! ## Resource records -/

/-- The present bit of a resource record (11.1). -/
def recordPresent (rec : BitVec 128) : Bool := rec.getLsbD 0

/-- A map field: 0 is the default, else a level (R11). -/
def mapOf (code : Nat) (default : Level) : Option Level := if code = 0 then some default else levelOfCode code

/-- The parent numbers that a record gives: bytes at or beyond the parent count are not read (R192). -/
def recordParents (rec : BitVec 128) : List Nat := (List.range (byteOf rec 5)).map fun i => byteOf rec (6 + i)

/-- Order 1 of R14: every field of the record is in range (R2, R5, R6, R8 to R12, R192). The configuration is given when it is.
The nominal setpoint and slew of a GATE are neither checked nor kept (R2). -/
def configOf (rec : BitVec 128) : Option ResourceConfig :=
  match kindOfCode (byteOf rec 1), mapOf (byteOf rec 13) .retain, mapOf (byteOf rec 14) .off, policyOfCode (byteOf rec 15 % 16),
      levelOfCode (byteOf rec 15 / 16) with
  | some kind, some sleepMap, some detachMap, some policy, some initial =>
    if 1 ≤ byteOf rec 3 ∧ byteOf rec 3 ≤ 126 ∧ byteOf rec 4 ≤ 3 ∧ byteOf rec 5 ≤ 2
        ∧ (∀ p ∈ recordParents rec, p ≤ 63)
        ∧ (kind = .gate ∨ (byteOf rec 8 ≤ setpointLimit kind ∧ 1 ≤ byteOf rec 9 ∧ byteOf rec 9 ≤ 31))
        ∧ 1 ≤ byteOf rec 10 ∧ byteOf rec 12 ≤ 3 then
      some
        { kind := kind
          mask := { retain := (byteOf rec 2).testBit 0, on := (byteOf rec 2).testBit 1 }
          endpoint := byteOf rec 3
          channel := byteOf rec 4
          parents := recordParents rec
          nominal := if kind = .gate then none else some (byteOf rec 8)
          slew := if kind = .gate then none else some (byteOf rec 9)
          settleLimit := byteOf rec 10
          hold := byteOf rec 11
          retryLimit := byteOf rec 12
          sleepMap := sleepMap
          detachMap := detachMap
          policy := policy
          initial := initial }
    else none
  | _, _, _, _, _ => none

/-! ## Grant records -/

/-- The valid bit of a grant record (11.1). -/
def grantValid (rec : BitVec 64) : Bool := rec.getLsbD 0

/-- The contents of a valid grant record whose fields are in range (R123, R192). -/
def grantOf (rec : BitVec 64) : Option Grant :=
  match levelOfCode (byteOf rec 4) with
  | none => none
  | some maxLevel =>
    if 1 ≤ byteOf rec 1 ∧ byteOf rec 1 ≤ 7 ∧ byteOf rec 5 ≤ 31 then
      some { domain := byteOf rec 1, idBase := byteOf rec 2 % 64, idMask := byteOf rec 3 % 64, maxLevel := maxLevel,
             cap := byteOf rec 5 }
    else none

/-! ## Submission entries -/

/-- The fields of a submission entry that every command carries (R131, 11.2). -/
structure EntryHeader where
  code     : Nat
  await    : Bool
  fresh    : Bool
  tag      : BitVec 16
  deadline : BitVec 16
  deriving DecidableEq, Repr

/-- The header fields of a submission entry (11.2). -/
def entryHeader (e : BitVec 256) : EntryHeader :=
  { code := byteOf e 0, await := e.getLsbD 8, fresh := e.getLsbD 9, tag := e.extractLsb' 16 16, deadline := e.extractLsb' 32 16 }

/-- Byte `k` of a submission entry, as a parameter byte. -/
def entryByte (e : BitVec 256) (k : Nat) : Byte := e.extractLsb' (8 * k) 8

/-! ## Frames on the Rail Link -/

/-- What an answer frame says (R96 to R98). The reason of a NAK is the byte as received (R195). -/
inductive AnswerBody where
  | ack
  | nak (reason : Nat)
  | data (reading : Reading)
  deriving DecidableEq, Repr

/-- A sample word: bits 0..9 voltage, 10..19 current, 20 to 22 the flags (11.2). -/
def readingOf (word : BitVec 32) : Reading :=
  { voltage := (word.extractLsb' 0 10).toNat
    current := (word.extractLsb' 10 10).toNat
    flags := { overcurrent := word.getLsbD 20, undervolt := word.getLsbD 21, overtemp := word.getLsbD 22 } }

/-- The sample word of a reading (11.2). -/
def sampleWord (r : Reading) : Nat :=
  r.voltage + 2 ^ 10 * r.current + 2 ^ 20 * r.flags.overcurrent.toNat + 2 ^ 21 * r.flags.undervolt.toNat
    + 2 ^ 22 * r.flags.overtemp.toNat

/-- The endpoint that a frame's first byte names: bit 7 is reserved (11.4). -/
def frameEndpoint (b : Byte) : Nat := b.toNat % 128
/-- The channel that a frame's second byte names (11.4). -/
def frameChannel (b : Byte) : Nat := b.toNat % 4
/-- The kind of a frame, bits 4 to 7 of its second byte (11.4). -/
def frameKind (b : Byte) : Nat := b.toNat / 16

/-- An answer frame with the endpoint and channel it names; `none` when it fails the frame check: its exclusive-or is not 0, its
length does not fit its kind, or its kind is not ACK, NAK or DATA (R195). -/
def answerOf (frame : List Byte) : Option (Nat × Nat × AnswerBody) :=
  if xorAll frame ≠ 0 then none
  else match frame with
    | [a, b, _] => if frameKind b = 8 then some (frameEndpoint a, frameChannel b, .ack) else none
    | [a, b, reason, _] => if frameKind b = 9 then some (frameEndpoint a, frameChannel b, .nak reason.toNat) else none
    | [a, b, w0, w1, w2, w3, _] =>
      if frameKind b = 10 then some (frameEndpoint a, frameChannel b, .data (readingOf (w3 ++ w2 ++ w1 ++ w0))) else none
    | _ => none

/-- A notice frame; `none` when it fails the frame check (R195). Bits 3 to 7 of an ALERT flag byte are not read. -/
def noticeOf (frame : List Byte) : Option Notice :=
  if xorAll frame ≠ 0 then none
  else match frame with
    | [a, b, _] => if frameKind b = 12 then some { endpoint := frameEndpoint a, channel := frameChannel b, kind := .settled } else none
    | [a, b, f, _] =>
      if frameKind b = 13 then
        some { endpoint := frameEndpoint a, channel := frameChannel b,
               kind := .alert { overcurrent := f.getLsbD 0, undervolt := f.getLsbD 1, overtemp := f.getLsbD 2 } }
      else none
    | _ => none

/-- A frame that the part sends: endpoint, channel and kind, the bytes after the address, and the frame check (11.4). -/
def buildFrame (endpoint channel kind : Nat) (payload : List Byte) : List Byte :=
  let body := BitVec.ofNat 8 endpoint :: BitVec.ofNat 8 (channel + 16 * kind) :: payload
  body ++ [xorAll body]

/-- A SET frame (11.4, R195): without a setpoint bit 7 of byte 2 is clear and byte 3 is 0. -/
def setFrame (endpoint channel : Nat) (goal : Setting) : List Byte :=
  match goal.setpoint with
  | none => buildFrame endpoint channel 1 [BitVec.ofNat 8 (levelCode goal.level), 0]
  | some sp => buildFrame endpoint channel 1 [BitVec.ofNat 8 (levelCode goal.level + 0x80), BitVec.ofNat 8 sp]

/-- A SAMPLE frame (11.4). -/
def sampleFrame (endpoint channel : Nat) : List Byte := buildFrame endpoint channel 2 []

/-- A CLEAR frame (11.4). -/
def clearFrame (endpoint channel : Nat) : List Byte := buildFrame endpoint channel 3 []

end Sys2Proof.Machine
end

