-- ==== Sys2Proof/Machine/Flags.lean ====
section
/-! DEFINITION. Condition flags, and the read values of the register window. -/

namespace Sys2Proof.Machine

/-- No flag set. -/
def noFlags : Flags := { overcurrent := false, undervolt := false, overtemp := false }

/-- The fault kind of a notice's or a sample's flags: the first set in the order OVERCURRENT, UNDERVOLT, OVERTEMP; none when all
are clear (R74). -/
def faultKindOfFlags (f : Flags) : Option FaultKind :=
  if f.overcurrent then some .overcurrent
  else if f.undervolt then some .undervolt
  else if f.overtemp then some .overtemp
  else none

/-- The flags as bits 0 to 2 of byte 11 of an event record (11.2). -/
def flagBits (f : Flags) : Nat := f.overcurrent.toNat + 2 * f.undervolt.toNat + 4 * f.overtemp.toNat

/-- The value that a read of CONTROL returns: RUN is 1 in LOADING, ALIGNING and RUNNING, and SOFT_RESET reads 0 (R183). -/
def readControl (s : State) : BitVec 32 :=
  match s.run.state with
  | .loading | .aligning | .running => 1
  | .stopped | .stopping => 0

/-- The value that a read of STATUS returns (R183, 11.5). -/
def readStatus (s : State) : BitVec 32 :=
  BitVec.ofNat 32 (runStateCode s.run.state + 8 * s.fault.safe.toNat + 16 * loadErrorCode s.run.loadError
    + 256 * s.run.resetRefused.toNat)

/-- A read of the register window (R196). Reading changes nothing, so it is a function of the state and no happening. The spec gives
no read at an offset below 0x14 that is no multiple of 4 (entry 14): there is no value for it. -/
def readRegister (s : State) (offset : BitVec 32) : Option (BitVec 32) :=
  if offset = 0x00#32 then some (readControl s)
  else if offset = 0x04#32 then some (readStatus s)
  else if offset = 0x08#32 ∨ offset = 0x0C#32 ∨ offset = 0x10#32 then some 0
  else if 0x14 ≤ offset.toNat then some 0
  else none

/-- The row that a 32-bit register write is (R196, 11.5): a CONTROL write acts on bits 0 and 1 alone, a NOTIFY write on its index
(bits 0..7), domain (bits 8..10) and kind (bits 12..13) alone. -/
def decodeRegisterWrite (offset value : BitVec 32) : Option Instr :=
  if offset = 0x00#32 then
    some (if value.getLsbD 1 then .softReset (value.getLsbD 0) else if value.getLsbD 0 then .runSet else .runClear)
  else if offset = 0x04#32 then some (.registerWriteIgnored offset value)
  else if offset = 0x08#32 then some (.cbAddressLow value)
  else if offset = 0x0C#32 then some (.cbAddressHigh value)
  else if offset = 0x10#32 then
    let index : Byte := value.extractLsb' 0 8
    let d : Domain := (value.extractLsb' 8 3).toFin
    some (match (value.extractLsb' 12 2).toNat with
      | 1 => .sqTail d index
      | 2 => .cqHead d index
      | 3 => .eventHead index
      | _ => .registerWriteIgnored offset value)
  else if 0x14 ≤ offset.toNat then some (.registerWriteIgnored offset value)
  else none

end Sys2Proof.Machine
end

