-- ==== Sys2Proof/Machine/Table.lean ====
section
/-! DEFINITION. Reading and writing numbered tables in their canonical form. -/

namespace Sys2Proof.Machine

/-- What place `k` of a table holds, if it is filled. -/
def tget {α : Type} : Table α → Nat → Option α
  | [], _ => none
  | (j, v) :: t, k => if j = k then some v else tget t k

/-- Fill place `k` with `v`, keeping the numbers rising. -/
def tset {α : Type} : Table α → Nat → α → Table α
  | [], k, v => [(k, v)]
  | (j, w) :: t, k, v =>
    if k < j then (k, v) :: (j, w) :: t
    else if k = j then (k, v) :: t
    else (j, w) :: tset t k v

/-- Empty place `k`. -/
def tdel {α : Type} (t : Table α) (k : Nat) : Table α := t.filter fun e => e.1 != k

/-- The filled places, in the order of the table. -/
def tkeys {α : Type} (t : Table α) : List Nat := t.map Prod.fst

/-- Change what every filled place holds. -/
def tmap {α : Type} (f : Nat → α → α) (t : Table α) : Table α := t.map fun e => (e.1, f e.1 e.2)

/-- Whether place `k` is filled. -/
def tmem {α : Type} (t : Table α) (k : Nat) : Bool := (tget t k).isSome

/-- The canonical form: numbers strictly rising. -/
def tsorted {α : Type} : Table α → Bool
  | [] => true
  | [_] => true
  | (j, _) :: (k, w) :: t => decide (j < k) && tsorted ((k, w) :: t)

end Sys2Proof.Machine
end

