-- ==== Sys2Proof/Machine/Ops.lean ====
section
/-! DEFINITION. The named reads and updates of the state: every block is read and written through these. -/

namespace Sys2Proof.Machine

/-! ## Updates, one per field of the state -/

/-- Replace Run Control's state. -/
def setRun (s : State) (x : RunControl) : State := { s with run := x }
/-- Replace the Host Port's state. -/
def setHost (s : State) (x : HostPort) : State := { s with host := x }
/-- Replace the Resource Table. -/
def setResources (s : State) (x : Table Resource) : State := { s with resources := x }
/-- Replace the domain cells of the Vote Table. -/
def setVotes (s : State) (x : Vector (Table Setting) 8) : State := { s with votes := x }
/-- Replace the boot-hold cells. -/
def setHolds (s : State) (x : Table Level) : State := { s with holds := x }
/-- Replace the Domain Table. -/
def setDomains (s : State) (x : Vector DomainRec 8) : State := { s with domains := x }
/-- Replace the Grant Table. -/
def setGrants (s : State) (x : Table Grant) : State := { s with grants := x }
/-- Replace the step slots. -/
def setSteps (s : State) (x : Table Step) : State := { s with steps := x }
/-- Replace the Link Controller's state. -/
def setLink (s : State) (x : LinkController) : State := { s with link := x }
/-- Replace the Fault Unit's state. -/
def setFault (s : State) (x : FaultUnit) : State := { s with fault := x }
/-- Replace the Waiter Table. -/
def setWaiters (s : State) (x : Table Waiter) : State := { s with waiters := x }
/-- Replace the domain queues. -/
def setQueues (s : State) (x : Vector Queue 8) : State := { s with queues := x }
/-- Replace the intake arbiter's state. -/
def setIntake (s : State) (x : Intake) : State := { s with intake := x }
/-- Replace the event ring's state. -/
def setEvents (s : State) (x : EventRing) : State := { s with events := x }
/-- Replace the queue of happenings. -/
def setPending (s : State) (x : List Instr) : State := { s with pending := x }

/-! ## Reads and updates of one place -/

/-- The record of resource slot `r`; `none` is an absent slot (R1). -/
def resourceAt (s : State) (r : Nat) : Option Resource := tget s.resources r
/-- Write the record of slot `r`. -/
def setResource (s : State) (r : Nat) (x : Resource) : State := setResources s (tset s.resources r x)
/-- Change the record of slot `r` if it is present. -/
def modifyResource (s : State) (r : Nat) (f : Resource → Resource) : State :=
  match resourceAt s r with
  | none => s
  | some x => setResource s r (f x)
/-- Set the condition of slot `r` if it is present. -/
def setCond (s : State) (r : Nat) (c : Condition) : State := modifyResource s r fun x => { x with cond := c }

/-- A domain's record. -/
def domainAt (s : State) (d : Domain) : DomainRec := s.domains[d.val]
/-- Write a domain's record. -/
def setDomainRec (s : State) (d : Domain) (x : DomainRec) : State := setDomains s (s.domains.set d.val x)

/-- A domain's queue. -/
def queueAt (s : State) (d : Domain) : Queue := s.queues[d.val]
/-- Write a domain's queue. -/
def setQueue (s : State) (d : Domain) (x : Queue) : State := setQueues s (s.queues.set d.val x)

/-- The present cells of a domain. -/
def cellsOf (s : State) (d : Domain) : Table Setting := s.votes[d.val]
/-- Replace the cells of a domain. -/
def setCells (s : State) (d : Domain) (x : Table Setting) : State := setVotes s (s.votes.set d.val x)
/-- The vote cell of domain `d` on slot `r`; `none` is an absent cell (R25). -/
def cellAt (s : State) (d : Domain) (r : Nat) : Option Setting := tget (cellsOf s d) r
/-- Write a cell, replacing its contents whole (R28). -/
def writeCell (s : State) (d : Domain) (r : Nat) (c : Setting) : State := setCells s d (tset (cellsOf s d) r c)
/-- Withdraw a cell (R29). -/
def dropCell (s : State) (d : Domain) (r : Nat) : State := setCells s d (tdel (cellsOf s d) r)

/-- The step in a slot; `none` is a FREE slot (R48). -/
def stepAt (s : State) (k : Nat) : Option Step := tget s.steps k
/-- Write the step of a slot. -/
def setStep (s : State) (k : Nat) (x : Step) : State := setSteps s (tset s.steps k x)
/-- Whether a resource has a step (R48). -/
def hasStep (s : State) (r : Nat) : Bool := s.steps.any fun e => e.2.resource == r
/-- Whether a resource is on the Cut List: the on-Cut-List field (R19). -/
def onCutList (s : State) (r : Nat) : Bool := s.fault.cutList.any fun e => e.resource == r

/-- The present slots, in increasing number. -/
def presentSlots (s : State) : List Nat := tkeys s.resources
/-- The present slots that name `r` as a parent: its children (R6). -/
def childrenOf (s : State) (r : Nat) : List Nat :=
  (s.resources.filter fun e => e.2.cfg.parents.contains r).map Prod.fst
/-- The parents of a slot (R6). -/
def parentsOf (s : State) (r : Nat) : List Nat :=
  match resourceAt s r with
  | none => []
  | some x => x.cfg.parents
/-- Whether `a` is an ancestor of `r`, over at most `n` generations (R6). -/
def isAncestorWithin : Nat → State → Nat → Nat → Bool
  | 0, _, _, _ => false
  | n + 1, s, a, r => (parentsOf s r).any fun p => p == a || isAncestorWithin n s a p
/-- Whether `a` is an ancestor of `r`: no chain has more than 8 resources (R6, R7). -/
def isAncestor (s : State) (a r : Nat) : Bool := isAncestorWithin Config.chainLimit s a r
/-- The descendants of `r`, in increasing number (R6). -/
def descendantsOf (s : State) (r : Nat) : List Nat := (presentSlots s).filter fun x => isAncestor s r x
/-- The slot that carries an endpoint channel (R5). -/
def slotCarrying (s : State) (endpoint channel : Nat) : Option Nat :=
  (s.resources.find? fun e => e.2.cfg.endpoint == endpoint && e.2.cfg.channel == channel).map Prod.fst

/-! ## Requests for the link -/

/-- The class of a requester's requests (R101). -/
def classOf : Requester → LinkClass
  | .cutList => .urgent
  | .step _ => .step
  | .clear _ => .clear
  | .query _ => .sample
  | .poller => .poll

/-- Place a request: it is younger than every request placed before it (R102). -/
def placeRequest (s : State) (q : Requester) (r : Nat) : State :=
  setLink s { s.link with requests := s.link.requests ++ [{ requester := q, resource := r }] }
/-- Remove a requester's request, if it holds one (R102). -/
def removeRequest (s : State) (q : Requester) : State :=
  setLink s { s.link with requests := s.link.requests.filter fun p => p.requester != q }
/-- A transaction record without the requester `q`. -/
def withoutRequester (q : Requester) (t : Transaction) : Transaction :=
  if t.requester == some q then { t with requester := none } else t
/-- Let the transaction of a requester that ends run to no requester (R100). -/
def detachRequester (s : State) (q : Requester) : State :=
  setLink s { s.link with transaction := s.link.transaction.map (withoutRequester q) }
/-- What ends a requester for the link: its request is removed, its transaction runs to no requester. -/
def releaseRequester (s : State) (q : Requester) : State := detachRequester (removeRequest s q) q

/-! ## Asking the Host Port -/

/-- Ask the Host Port for a memory write (R174, R175, R178). -/
def askWrite (s : State) (owner : WriteOwner) (addr : BitVec 64) (data : List Byte) : State :=
  setHost s { s.host with writes := s.host.writes ++ [{ owner := owner, addr := addr, data := data, live := true }] }
/-- The outcomes of the outstanding writes of an owner no longer count (R175). -/
def killWrites (s : State) (owner : WriteOwner) : State :=
  setHost s { s.host with writes := s.host.writes.map fun w => if w.owner = owner then { w with live := false } else w }
/-- The outcomes of no outstanding write count any longer (R175, R180, R181). -/
def killAllWrites (s : State) : State :=
  setHost s { s.host with writes := s.host.writes.map fun w => { w with live := false } }

/-! ## Free slots and cancelled steps -/

/-- Free a step slot: the step holds no request and, if its SET is in flight, its answer goes to no step (R63, R66, R68, R69). -/
def freeStep (s : State) (k : Nat) : State := releaseRequester (setSteps s (tdel s.steps k)) (.step k)

/-- A step whose direction is RAISE, or SETPOINT upward (R48, R55). -/
def risesTowards (st : Step) : Bool :=
  match st.direction with
  | .raise => true
  | .lower => false
  | .setpoint => decide (st.origin.setpoint.getD 0 < st.goal.setpoint.getD 0)

/-- Whether the step has sent its SET at least once (R79, R80). -/
def hasSentSet (st : Step) : Bool :=
  match st.state with
  | .awaitingLink => decide (1 ≤ st.retries)
  | .issued | .settling _ | .holding _ => true

/-- A step in AWAITING_LINK. -/
def isAwaiting (st : Step) : Bool := st.state == .awaitingLink

/-- Record a step's to level and setpoint in its resource (R58, R59, R60, R67). -/
def recordGoal (s : State) (st : Step) : State :=
  modifyResource s st.resource fun x => { x with level := st.goal.level, setpoint := st.goal.setpoint }

/-- The lease of a full period: stopped when the period is 0 (R117, R120). -/
def fullLease (period : Nat) : Option Nat := if period = 0 then none else some (period * Config.leaseUnits)

/-- Restart a domain's lease at the full period; a restart applies only to a lease that is running or frozen (R121). -/
def restartLease (s : State) (d : Domain) : State :=
  let x := domainAt s d
  match x.lease with
  | none => s
  | some _ => setDomainRec s d { x with lease := fullLease x.leasePeriod }

/-- The gate of R55: the SAFE flag is set or the run state is STOPPING. -/
def risesBarred (s : State) : Bool := s.fault.safe || s.run.state == .stopping

end Sys2Proof.Machine
end

