-- ==== Sys2Proof/Machine/Targets.lean ====
section
/-! DEFINITION. Levels, effective votes and the derived target (chapter 2), and what follows a change of target (R41). -/

namespace Sys2Proof.Machine

/-! ## Levels -/

/-- The order of the levels (00_scope, Levels). -/
def levelRank : Level → Nat
  | .off => 0
  | .retain => 1
  | .on => 2

/-- `a` is at or below `b`. -/
def levelLe (a b : Level) : Bool := decide (levelRank a ≤ levelRank b)
/-- The higher of two levels. -/
def levelMax (a b : Level) : Level := if levelRank a < levelRank b then b else a
/-- The lower of two levels. -/
def levelMin (a b : Level) : Level := if levelRank b < levelRank a then b else a
/-- The highest of some levels; OFF if there is none (R37). -/
def highestLevel (ls : List Level) : Level := ls.foldl levelMax .off

/-- Whether a mask supports a level (R3). -/
def supports (m : Mask) : Level → Bool
  | .off => true
  | .retain => m.retain
  | .on => m.on

/-- The rounded level: the level itself if supported, else the lowest supported level above it, else the highest supported (R4). -/
def rounded (m : Mask) (l : Level) : Level :=
  if supports m l then l
  else match [Level.off, .retain, .on].find? (fun k => supports m k && !levelLe k l) with
    | some k => k
    | none => highestLevel ([Level.off, .retain, .on].filter (supports m))

/-! ## Effective votes -/

/-- The level at which a posture caps the votes on a resource (R32). -/
def postureCap (cfg : ResourceConfig) : Posture → Level
  | .active => .on
  | .drowsy => cfg.sleepMap
  | .detached => cfg.detachMap

/-- The effective level of a vote (R32). -/
def effectiveLevel (cfg : ResourceConfig) (p : Posture) (voted : Level) : Level := levelMin voted (postureCap cfg p)

/-- The effective vote of a present cell: its setpoint acts only when the effective level is ON on a RAIL or CLOCK (R33). -/
def effectiveVote (cfg : ResourceConfig) (p : Posture) (cell : Setting) : Setting :=
  { level := effectiveLevel cfg p cell.level
    setpoint := if effectiveLevel cfg p cell.level = .on ∧ cfg.kind ≠ .gate then cell.setpoint else none }

/-- The effective votes of the present cells on a resource (R32 to R35). A disabled domain has no posture and no vote (R35). -/
def effectiveVotes (s : State) (r : Nat) (cfg : ResourceConfig) : List Setting :=
  Config.allDomains.filterMap fun d =>
    match (domainAt s d).posture, cellAt s d r with
    | some p, some c => some (effectiveVote cfg p c)
    | _, _ => none

/-! ## The target -/

/-- The causes that force a present resource's target to OFF (R36). -/
def forcedOff (s : State) (x : Resource) : Bool :=
  x.cond == .locked || x.cond == .clearing || s.fault.safe
    || s.run.state == .stopping || s.run.state == .stopped || s.run.state == .loading

/-- The contributions of the resource's own cells: effective levels of the domain cells and the level of the hold cell (R37). -/
def ownLevels (s : State) (r : Nat) (cfg : ResourceConfig) : List Level :=
  (effectiveVotes s r cfg).map Setting.level ++ (tget s.holds r).toList

/-- The target level of a resource, counting `n` generations: the rounded highest contribution of its own cells and of its
children's target levels (R36 to R38). -/
def targetLevelWithin : Nat → State → Nat → Level
  | 0, _, _ => .off
  | n + 1, s, r =>
    match resourceAt s r with
    | none => .off
    | some x =>
      if forcedOff s x then .off
      else rounded x.cfg.mask (highestLevel (ownLevels s r x.cfg ++ (childrenOf s r).map (targetLevelWithin n s)))

/-- The target level: no chain has more than 8 resources (R7). -/
def targetLevel (s : State) (r : Nat) : Level := targetLevelWithin Config.chainLimit s r

/-- The highest of some setpoints. -/
def highestSetpoint : List Nat → Option Nat
  | [] => none
  | n :: ns => some (ns.foldl max n)

/-- The target setpoint at ON: the highest effective setpoint, else the nominal setpoint; none for a GATE (R39). -/
def targetSetpoint (s : State) (r : Nat) (cfg : ResourceConfig) : Option Nat :=
  if cfg.kind = .gate then none
  else match highestSetpoint ((effectiveVotes s r cfg).filterMap Setting.setpoint) with
    | some n => some n
    | none => cfg.nominal

/-- The target of a resource; an absent slot has none (2.3). -/
def targetOf (s : State) (r : Nat) : Option Setting :=
  (resourceAt s r).map fun x =>
    { level := targetLevel s r, setpoint := if targetLevel s r = .on then targetSetpoint s r x.cfg else none }

/-! ## Judging conditions -/

/-- The test of R20: the level and, at ON, the setpoint equal the target; a GATE is compared by level alone. -/
def meetsTarget (x : Resource) (t : Setting) : Bool :=
  x.level == t.level && (t.level != .on || x.cfg.kind == .gate || x.setpoint == t.setpoint)

/-- The condition of a resource without a step, locked by nothing, against its target; while alignment is owed it is WAITING (R20). -/
def restingCondition (s : State) (r : Nat) (x : Resource) : Condition :=
  if x.alignOwed then .waiting
  else match targetOf s r with
    | some t => if meetsTarget x t then .steady else .waiting
    | none => .waiting

/-- Whether R20 judges the resource: it is STEADY or WAITING with no alignment owed. -/
def isJudged (x : Resource) : Bool := (x.cond == .steady || x.cond == .waiting) && !x.alignOwed

/-- The record of a resource after R20 has judged it. -/
def judged (s : State) (r : Nat) (x : Resource) : Resource :=
  if isJudged x then { x with cond := restingCondition s r x } else x

/-- Judge the resources of a list together. -/
def judgeConditions (s : State) (rs : List Nat) : State :=
  setResources s (tmap (fun r x => if rs.contains r then judged s r x else x) s.resources)

/-- The resources of a list that judging takes from WAITING to STEADY: the reports of R20. -/
def becomeSteady (s : State) (rs : List Nat) : List Nat :=
  rs.filter fun r =>
    match resourceAt s r with
    | none => false
    | some x => x.cond == .waiting && (judged s r x).cond == .steady

/-- Two targets have the same level and the same setpoint. -/
def sameTarget : Option Setting → Option Setting → Bool
  | none, none => true
  | none, some _ => false
  | some _, none => false
  | some a, some b => a.level == b.level && a.setpoint == b.setpoint

/-- The present resources whose target a happening changed (R41). -/
def changedTargets (before after : State) : List Nat :=
  (presentSlots after).filter fun r => !sameTarget (targetOf before r) (targetOf after r)

/-- Withdraw the step of a slot: the slot is freed and its resource is WAITING (R66, R67). -/
def withdrawStep (s : State) (k : Nat) (st : Step) : State := setCond (freeStep s k) st.resource .waiting

/-- Withdraw the unissued steps of the resources whose target changed (R66). -/
def withdrawChanged (s : State) (changed : List Nat) : State :=
  (s.steps.filter fun e => isAwaiting e.2 && e.2.retries == 0 && changed.contains e.2.resource).foldl
    (fun t e => withdrawStep t e.1 e.2) s

/-- The state after a part of a happening, and the resources to report to the Waiter Table. -/
structure Followed where
  state   : State
  reports : List Nat

/-- What follows in a happening that took `before` to `after` (R41): unissued steps of the resources whose target changed are
withdrawn, those resources and the `touched` ones (whose level, setpoint or alignment the happening itself changed) are judged by
R20, and the ones that become STEADY are to be reported. -/
def followTargets (before after : State) (touched : List Nat) : Followed :=
  let changed := changedTargets before after
  let withdrawn := withdrawChanged after changed
  let rs := (presentSlots after).filter fun r => changed.contains r || touched.contains r
  { state := judgeConditions withdrawn rs, reports := becomeSteady withdrawn rs }

end Sys2Proof.Machine
end

