-- ==== Sys2Proof/Machine/Posting.lean ====
section
/-! DEFINITION. Ring indices, the posting of completions, the event ring and queue halts (chapter 9). -/

namespace Sys2Proof.Machine

/-! ## Indices -/

/-- The index after `i` in a ring of `size` entries (R166, R167). -/
def nextIndex (size i : Nat) : Nat := if i + 1 < size then i + 1 else 0

/-- (tail - head) modulo the size: the entries between them (R166, R177). -/
def ringCount (size tail head : Nat) : Nat := (tail + size - head) % size

/-- The pending commands of a queue (R166). -/
def pendingCount (q : Queue) : Nat :=
  match q.desc with
  | none => 0
  | some desc => ringCount desc.sqSize q.sqTail q.sqHead

/-- The written completions of a queue (R166). -/
def writtenCount (q : Queue) : Nat :=
  match q.desc with
  | none => 0
  | some desc => ringCount desc.cqSize q.cqTail q.cqHead

/-- Whether the completion ring has room for one more completion beside the written ones and those its `held` reservations owe
(R171): written + held + 1 is at or below the CQ size minus 1. -/
def hasRoom (q : Queue) (held : Nat) : Bool :=
  match q.desc with
  | none => false
  | some desc => decide (writtenCount q + held + 1 ≤ desc.cqSize - 1)

/-! ## Entry addresses -/

/-- Where entry `i` of the submission ring lies: SQ base plus 32 times `i` (R165). -/
def submissionAddress (desc : RingDescriptor) (i : Nat) : BitVec 64 := desc.sqBase + BitVec.ofNat 64 (32 * i)

/-- Where entry `i` of the completion ring lies: CQ base plus 16 times `i` (R165). -/
def completionAddress (desc : RingDescriptor) (i : Nat) : BitVec 64 := desc.cqBase + BitVec.ofNat 64 (16 * i)

/-- Where entry `i` of the event ring lies: its base plus 16 times `i` (R177). -/
def eventAddress (desc : EventDescriptor) (i : Nat) : BitVec 64 := desc.base + BitVec.ofNat 64 (16 * i)

/-! ## Completions -/

/-- Bytes 4 to 15 of a completion that carries no QUERY result: the entry index or 0xFF, then zeros (11.2). -/
def indexPayload (index : Option Nat) : List Byte :=
  BitVec.ofNat 8 (index.getD 0xFF) :: List.replicate 11 0

/-- A completion as it is handed to the Queue Engine (R133). -/
structure Completion where
  domain  : Domain
  code    : Nat
  tag     : BitVec 16
  status  : Status
  payload : List Byte

/-- The completion entry: code, status with the phase in bit 7, tag, and index or result (11.2). -/
def completionRecord (c : Completion) (phase : Bool) : List Byte :=
  [BitVec.ofNat 8 c.code, BitVec.ofNat 8 (statusCode c.status + 128 * phase.toNat)] ++ bytesLE 2 c.tag.toNat ++ c.payload

/-- Post a completion (R174). `held` says that it comes with the reservation of a waiter; otherwise it comes with the fetch
reservation of the command just taken. One that finds its queue not ENABLED is discarded with its reservation. -/
def postCompletion (s : State) (held : Bool) (c : Completion) : State :=
  let q := queueAt s c.domain
  let held' := if held then q.reservations - 1 else q.reservations
  match q.state, q.desc with
  | .enabled, some desc =>
    let s1 := askWrite s (.queue c.domain) (completionAddress desc q.cqTail) (completionRecord c q.cqPhase)
    let s2 := if q.armed then askWrite s1 (.queue c.domain) desc.msgAddr (bytesLE 4 desc.msgData.toNat) else s1
    let tail := nextIndex desc.cqSize q.cqTail
    setQueue s2 c.domain
      { q with cqTail := tail, cqPhase := if tail = 0 then !q.cqPhase else q.cqPhase, reservations := held', armed := false }
  | _, _ => setQueue s c.domain { q with reservations := held' }

/-! ## Events -/

/-- The kinds of event (R178). -/
inductive EventKind where
  | fault | safeEntered | safeLeft | collapseFailed | clearFailed | leaseLost | queueError | strayNotice | alignDone | stopDone
  deriving DecidableEq, Repr

/-- The event kind codes (11.3). -/
def eventKindCode : EventKind → Nat
  | .fault => 1
  | .safeEntered => 2
  | .safeLeft => 3
  | .collapseFailed => 4
  | .clearFailed => 5
  | .leaseLost => 6
  | .queueError => 7
  | .strayNotice => 8
  | .alignDone => 9
  | .stopDone => 10

/-- The contents of an event, bytes 8 to 14 of its record (11.2, R194). -/
structure Event where
  kind     : EventKind
  subject  : Nat
  detail   : Nat
  action   : Nat
  flags    : Nat
  nak      : Nat
  endpoint : Nat
  channel  : Nat

/-- An event with a subject and a detail code alone; 0xFF is no subject (R194). -/
def plainEvent (kind : EventKind) (subject detail : Nat) : Event :=
  { kind := kind, subject := subject, detail := detail, action := 0, flags := 0, nak := 0, endpoint := 0, channel := 0 }

/-- The event record (11.2): kind, phase, dropped before, run time, subject, detail, action, flags, NAK reason, endpoint, channel. -/
def eventRecord (e : Event) (phase : Bool) (dropped : Nat) (runTime : BitVec 32) : List Byte :=
  [BitVec.ofNat 8 (eventKindCode e.kind), BitVec.ofNat 8 phase.toNat] ++ bytesLE 2 dropped ++ bytesLE 4 runTime.toNat
    ++ [BitVec.ofNat 8 e.subject, BitVec.ofNat 8 e.detail, BitVec.ofNat 8 e.action, BitVec.ofNat 8 e.flags,
        BitVec.ofNat 8 e.nak, BitVec.ofNat 8 e.endpoint, BitVec.ofNat 8 e.channel, 0]

/-- The dropped count after one more event that is not written (R178). -/
def oneMoreDropped (n : Nat) : Nat := min 65535 (n + 1)

/-- Take an event handed to the Queue Engine (R178). -/
def handEvent (s : State) (e : Event) : State :=
  match s.events.enabled, s.events.desc with
  | true, some desc =>
    if ringCount desc.size s.events.tail s.events.head = desc.size - 1 then
      setEvents s { s.events with dropped := oneMoreDropped s.events.dropped }
    else
      let s1 := askWrite s .events (eventAddress desc s.events.tail)
        (eventRecord e s.events.phase s.events.dropped s.run.runTime)
      let s2 := if s.events.armed then askWrite s1 .events desc.msgAddr (bytesLE 4 desc.msgData.toNat) else s1
      let tail := nextIndex desc.size s.events.tail
      setEvents s2 { s.events with tail := tail, phase := if tail = 0 then !s.events.phase else s.events.phase, dropped := 0,
                                   armed := false }
  | _, _ => setEvents s { s.events with dropped := oneMoreDropped s.events.dropped }

/-! ## Fetches and halts -/

/-- A fetch in flight of domain `d` becomes void, its reservation dropped (R173). -/
def voidFetch (s : State) (d : Domain) : State :=
  setIntake s { s.intake with fetch := s.intake.fetch.map fun f => if f.domain == d then { f with void := true } else f }

/-- Whether a fetch of domain `d` is in flight with its fetch reservation (R171, R173). -/
def fetchReservation (s : State) (d : Domain) : Nat :=
  match s.intake.fetch with
  | some f => if f.domain = d ∧ f.void = false then 1 else 0
  | none => 0

end Sys2Proof.Machine
end

