-- ==== Sys2Proof/Machine/Waiters.lean ====
section
/-! DEFINITION. The Waiter Table: satisfaction, reports, and the ways a waiter ends (chapter 8). -/

namespace Sys2Proof.Machine

/-! ## What a waiter covers -/

/-- The command codes (11.2). -/
def codeVote : Nat := 0x01
/-- VOTE_LIST. -/
def codeVoteList : Nat := 0x02
/-- WITHDRAW. -/
def codeWithdraw : Nat := 0x03
/-- POSTURE. -/
def codePosture : Nat := 0x04
/-- RENEW. -/
def codeRenew : Nat := 0x05
/-- QUERY. -/
def codeQuery : Nat := 0x06
/-- FENCE. -/
def codeFence : Nat := 0x07
/-- GRANT. -/
def codeGrant : Nat := 0x10
/-- REVOKE. -/
def codeRevoke : Nat := 0x11
/-- SET_DOMAIN. -/
def codeSetDomain : Nat := 0x12
/-- CLEAR_FAULT. -/
def codeClearFault : Nat := 0x13
/-- CLEAR_SAFE. -/
def codeClearSafe : Nat := 0x14
/-- RELEASE_HOLD. -/
def codeReleaseHold : Nat := 0x15
/-- CONFIG_RESOURCE. -/
def codeConfigResource : Nat := 0x16

/-- The command code that the completion of a waiter carries (R151). -/
def waiterCode : WaiterBody → Nat
  | .vote _ _ => codeVote
  | .list _ => codeVoteList
  | .fence _ => codeFence
  | .query _ _ => codeQuery
  | .clear _ => codeClearFault

/-- The covered set (R151). -/
def coveredSet : WaiterBody → List Nat
  | .vote r _ => [r]
  | .list voted => tkeys voted
  | .fence set => set
  | .query r _ => [r]
  | .clear r => [r]

/-- Whether a waiter covers a resource. -/
def covers (w : Waiter) (r : Nat) : Bool := (coveredSet w.body).contains r
/-- Whether a waiter covers one of some resources. -/
def coversAny (w : Waiter) (rs : List Nat) : Bool := (coveredSet w.body).any fun r => rs.contains r

/-- A waiter of kind VOTE or LIST: the kinds that are superseded (R158). -/
def isVoteOrList (w : Waiter) : Bool :=
  match w.body with
  | .vote _ _ | .list _ => true
  | .fence _ | .query _ _ | .clear _ => false

/-- A waiter of kind FENCE. -/
def isFence (w : Waiter) : Bool :=
  match w.body with
  | .fence _ => true
  | .vote _ _ | .list _ | .query _ _ | .clear _ => false

/-- A waiter of kind CLEAR. -/
def isClear (w : Waiter) : Bool :=
  match w.body with
  | .clear _ => true
  | .vote _ _ | .list _ | .fence _ | .query _ _ => false

/-- A waiter of kind QUERY. -/
def isQuery (w : Waiter) : Bool :=
  match w.body with
  | .query _ _ => true
  | .vote _ _ | .list _ | .fence _ | .clear _ => false

/-! ## Satisfaction -/

/-- A resource is satisfied for what is asked of it (R153): STEADY, its level at or above the rounded level asked, and, when ON with
a setpoint is asked, its setpoint at or above that one. -/
def satisfiedAt (s : State) (r : Nat) (asked : Setting) : Bool :=
  match resourceAt s r with
  | none => false
  | some x =>
    x.cond == .steady && levelLe (rounded x.cfg.mask asked.level) x.level
      && (match asked.level, asked.setpoint with
          | .on, some sp => (match x.setpoint with
                             | some recorded => decide (sp ≤ recorded)
                             | none => false)
          | _, _ => true)

/-- A waiter of kind VOTE, LIST or FENCE is satisfied: every covered resource is, against the voted values or, for a FENCE, against
the domain's cell as it stands (R153, R156). QUERY and CLEAR waiters are not judged. -/
def waiterSatisfied (s : State) (w : Waiter) : Bool :=
  match w.body with
  | .vote r voted => satisfiedAt s r voted
  | .list voted => voted.all fun e => satisfiedAt s e.1 e.2
  | .fence set => set.all fun r => (match cellAt s w.domain r with
                                    | some c => satisfiedAt s r c
                                    | none => false)
  | .query _ _ => false
  | .clear _ => false

/-! ## Creation -/

/-- The lowest-numbered FREE entry (R152). -/
def freeEntry (ws : Table Waiter) : Option Nat := (List.range Config.waiterEntries).find? fun k => !tmem ws k

/-- The deadline timer of a command's deadline: none for 0 (R152). -/
def deadlineTimer (deadline : BitVec 16) : Option Nat :=
  if deadline = 0 then none else some (deadline.toNat * Config.unitsPerMs)

/-- Create a waiter in the lowest FREE entry, with the command's reservation; a QUERY waiter places its SAMPLE request (R152). -/
def createWaiter (s : State) (w : Waiter) : State :=
  match freeEntry s.waiters with
  | none => s
  | some k =>
    let q := queueAt s w.domain
    let s1 := setQueue (setWaiters s (tset s.waiters k w)) w.domain { q with reservations := q.reservations + 1 }
    match w.body with
    | .query r _ => placeRequest s1 (.query k) r
    | .vote _ _ | .list _ | .fence _ | .clear _ => s1

/-! ## Ending -/

/-- Free a waiter entry: its timer stops, a QUERY's SAMPLE request is removed and its SAMPLE runs to no requester (R110, 8.4). -/
def dropWaiter (s : State) (k : Nat) : State := releaseRequester (setWaiters s (tdel s.waiters k)) (.query k)

/-- End a waiter with a completion (8.4). A QUERY that is handed a result carries it. -/
def completeWith (s : State) (k : Nat) (status : Status) (payload : List Byte) : State :=
  match tget s.waiters k with
  | none => s
  | some w =>
    postCompletion (dropWaiter s k) true
      { domain := w.domain, code := waiterCode w.body, tag := w.tag, status := status, payload := payload }

/-- End a waiter with a completion that carries no index and no result. -/
def completeWaiter (s : State) (k : Nat) (status : Status) : State := completeWith s k status (indexPayload none)

/-- The entries of the waiters that a cause ends, in increasing number (R163). -/
def entriesWhere (s : State) (p : Waiter → Bool) : List Nat := (s.waiters.filter fun e => p e.2).map Prod.fst

/-- End some waiters with one status, in increasing entry number (R163). -/
def completeEntries (s : State) (ks : List Nat) (status : Status) : State :=
  ks.foldl (fun t k => completeWaiter t k status) s

/-- End the waiters that a cause reaches (R163). -/
def completeWhere (s : State) (p : Waiter → Bool) (status : Status) : State := completeEntries s (entriesWhere s p) status

/-- Discard every waiter of a domain without completion; its reservations become 0 (R162). -/
def discardWaiters (s : State) (d : Domain) : State :=
  let s1 := (entriesWhere s fun w => w.domain == d).foldl dropWaiter s
  setQueue s1 d { queueAt s1 d with reservations := 0 }

/-! ## Reports -/

/-- The waiters that the reports of some resources, and the Command Unit's judgement of a domain's FENCE waiters covering written or
withdrawn cells, complete SATISFIED (R154, R155). `fences` are the entries of those FENCE waiters. -/
def satisfiedEntries (s : State) (reports fences : List Nat) : List Nat :=
  (s.waiters.filter fun e => (coversAny e.2 reports || fences.contains e.1) && waiterSatisfied s e.2).map Prod.fst

/-- Judge the waiters on the reports of a happening, all conditions being set; the satisfied ones complete in increasing entry
number (R154, R155, R163). -/
def judgeReports (s : State) (reports fences : List Nat) : State :=
  completeEntries s (satisfiedEntries s reports fences) .satisfied

/-! ## Queue halts -/

/-- The reasons of a QUEUE_ERROR event (11.3). -/
inductive HaltReason where
  | badTail | badHead | busError
  deriving DecidableEq, Repr

/-- The QUEUE_ERROR reason codes (11.3). -/
def haltReasonCode : HaltReason → Nat
  | .badTail => 1
  | .badHead => 2
  | .busError => 3

/-- A queue halt (R176): the state becomes HALTED, the waiters are discarded, a fetch in flight becomes void, outcomes of writes asked
before count no longer (R175), and a QUEUE_ERROR event is handed. -/
def haltQueue (s : State) (d : Domain) (reason : HaltReason) : State :=
  let s1 := setQueue s d { queueAt s d with state := .halted }
  let s2 := killWrites (voidFetch (discardWaiters s1 d) d) (.queue d)
  handEvent s2 (plainEvent .queueError d.val (haltReasonCode reason))

end Sys2Proof.Machine
end

