-- ==== Sys2Proof/Machine/FaultUnit.lean ====
section
/-! DEFINITION. Faults, locks, the Cut List, SAFE and clear records (chapter 4). -/

namespace Sys2Proof.Machine

/-! ## The Cut List -/

/-- Place the URGENT request of the front entry (R84). -/
def placeUrgent (s : State) : State :=
  match s.fault.cutList with
  | [] => s
  | e :: _ => placeRequest s .cutList e.resource

/-- Append a resource at the tail unless it is on the list; an entry that becomes the front entry places its request (R79, R83, R84). -/
def appendCut (s : State) (r : Nat) : State :=
  if onCutList s r then s
  else
    let s1 := setFault s { s.fault with cutList := s.fault.cutList ++ [{ resource := r, attempts := 0 }] }
    if s.fault.cutList.isEmpty then placeUrgent s1 else s1

/-- The front entry leaves the list and the next one becomes the front entry (R84). -/
def popCut (s : State) : State := placeUrgent (setFault s { s.fault with cutList := s.fault.cutList.tail })

/-! ## Steps under a lock, under SAFE and in STOPPING -/

/-- Cancel the steps of some resources, in whatever state they are; nothing is recorded (R68). -/
def cancelSteps (s : State) (rs : List Nat) : State :=
  (s.steps.filter fun e => rs.contains e.2.resource).foldl (fun t e => freeStep t e.1) s

/-- Withdraw one step at the entry to SAFE or STOPPING: a NORMAL step that retried records its to values (R67). -/
def withdrawBarred (s : State) (k : Nat) (st : Step) : State :=
  let s1 := if st.purpose = .normal ∧ 1 ≤ st.retries then recordGoal s st else s
  withdrawStep s1 k st

/-- The steps in AWAITING_LINK that are RAISE or upward SETPOINT (R67). -/
def barredSteps (s : State) : Table Step := s.steps.filter fun e => isAwaiting e.2 && risesTowards e.2

/-- Withdraw every step of `barredSteps` (R67). -/
def withdrawBarredSteps (s : State) : State := (barredSteps s).foldl (fun t e => withdrawBarred t e.1 e.2) s

/-- The resources that owe alignment and cease to at the entry to SAFE: an initial level above OFF and no step (R72). -/
def releasedBySafe (s : State) : List Nat :=
  (s.resources.filter fun e => e.2.alignOwed && e.2.cfg.initial != .off && !hasStep s e.1).map Prod.fst

/-- Release the alignment of some resources (R19). -/
def releaseAlignment (s : State) (rs : List Nat) : State :=
  setResources s (tmap (fun r x => if rs.contains r then { x with alignOwed := false } else x) s.resources)

/-! ## The lock -/

/-- The descendants of `r` that a lock collapses: those in STEADY, WAITING or STEPPING (R79). -/
def collapsedBy (s : State) (r : Nat) : List Nat :=
  (descendantsOf s r).filter fun x =>
    match resourceAt s x with
    | none => false
    | some y => y.cond == .steady || y.cond == .waiting || y.cond == .stepping

/-- Whether a collapsed descendant is appended to the Cut List: its level was above OFF, or its step had sent its SET (R79, R80). -/
def mustCut (s : State) (x : Nat) : Bool :=
  (match resourceAt s x with
   | none => false
   | some y => y.level != .off)
  || s.steps.any fun e => e.2.resource == x && hasSentSet e.2

/-- The record of a locked resource (R22, R79). -/
def lockedRecord (x : Resource) : Resource := { x with level := .off, setpoint := none, cond := .locked, alignOwed := false }
/-- The record of a collapsed descendant, before it is judged (R79). -/
def collapsedRecord (x : Resource) : Resource := { x with level := .off, setpoint := none, cond := .waiting, alignOwed := false }

/-- The Resource Table part of a lock (R79, items 1, 2 and 5). -/
def lockRecords (s : State) (r : Nat) (collapsed : List Nat) : State :=
  setResources s (tmap (fun k x => if k = r then lockedRecord x else if collapsed.contains k then collapsedRecord x else x) s.resources)

/-- A lock of resource `r` (R79), up to the FAULTED completions of item 7; the reports of item 8 are judged by the happening that
takes the lock, after every other completion (R155). -/
def lockResource (s : State) (r : Nat) : Followed :=
  let collapsed := collapsedBy s r
  let cuts := r :: collapsed.filter (mustCut s)
  let s1 := lockRecords (cancelSteps s (r :: collapsed)) r collapsed
  let s2 := cuts.foldl appendCut s1
  let f := followTargets s s2 collapsed
  { state := completeWhere f.state (fun w => covers w r && !isClear w) .faulted, reports := f.reports }

/-! ## SAFE -/

/-- Entry to SAFE (R87, items 1 to 4): the flag and the trip cause, the withdrawals of R67, the releases of R72, targets and
conditions, and the SAFE completions. Its reports and its event come later in the happening. -/
def enterSafe (s : State) (r : Nat) (kind : FaultKind) : Followed :=
  let s1 := setFault s { s.fault with safe := true, tripCause := some { resource := r, kind := kind } }
  let withdrawn := (barredSteps s1).map fun e => e.2.resource
  let s2 := withdrawBarredSteps s1
  let released := releasedBySafe s2
  let f := followTargets s (releaseAlignment s2 released) (withdrawn ++ released)
  { state := completeWhere f.state (fun w => !isClear w) .safe, reports := f.reports }

/-! ## Taking a fault -/

/-- The classes of fault (R74, R75). -/
inductive FaultClass where
  | condition | step | sample
  deriving DecidableEq, Repr

/-- The actions of the Fault Unit (R76). -/
inductive FaultAction where
  | none | lock | lockSafe
  deriving DecidableEq, Repr

/-- The action codes of byte 10 of a FAULT event (11.2). -/
def faultActionCode : FaultAction → Nat
  | .none => 0
  | .lock => 1
  | .lockSafe => 2

/-- The action of the policy: LOCK_SAFE only when the fault enters SAFE (R77, R89). -/
def policyAction (safe : Bool) (cls : FaultClass) : Policy → FaultAction
  | .report => if cls = .condition then .none else .lock
  | .cut => .lock
  | .trip => if safe then .lock else .lockSafe

/-- The action on a fault (R77): a LOCKED or CLEARING resource, and for a condition fault a resource at OFF, takes NONE. -/
def faultAction (s : State) (x : Resource) (cls : FaultClass) : FaultAction :=
  if x.cond = .locked ∨ x.cond = .clearing ∨ (cls = .condition ∧ x.level = .off) then .none
  else policyAction s.fault.safe cls x.cfg.policy

/-- The record of a resource after a fault of it is recorded (R17, R76). -/
def faultedRecord (x : Resource) (kind : FaultKind) : Resource :=
  { x with lastFault := some kind, faultCount := min 255 (x.faultCount + 1) }

/-- The FAULT event (R76, R100). -/
def faultEvent (r : Nat) (kind : FaultKind) (action : FaultAction) (flags : Flags) (nak : Nat) : Event :=
  { plainEvent .fault r (faultKindCode kind) with action := faultActionCode action, flags := flagBits flags, nak := nak }

/-- Take a fault of a resource (R76): it is recorded, its action is carried out with the reports that the action gives, and the FAULT
event is handed, before SAFE_ENTERED where the action enters SAFE (R87). -/
def takeFault (s : State) (r : Nat) (kind : FaultKind) (cls : FaultClass) (flags : Flags) (nak : Nat) : State :=
  match resourceAt s r with
  | none => s
  | some x =>
    let s0 := setResource s r (faultedRecord x kind)
    let action := faultAction s x cls
    let event := faultEvent r kind action flags nak
    match action with
    | .none => handEvent s0 event
    | .lock =>
      let f := lockResource s0 r
      handEvent (judgeReports f.state f.reports []) event
    | .lockSafe =>
      let f := lockResource s0 r
      let g := enterSafe f.state r kind
      handEvent (handEvent (judgeReports g.state (f.reports ++ g.reports) []) event)
        (plainEvent .safeEntered r (faultKindCode kind))

/-- Take the flags of a notice or a sample as a condition fault, if one is set (R74). -/
def takeFlags (s : State) (r : Nat) (flags : Flags) : State :=
  match faultKindOfFlags flags with
  | none => s
  | some kind => takeFault s r kind .condition flags 0

/-! ## Clear records -/

/-- Make a clear record for `r` with its CLEAR request: `r` becomes CLEARING (R91). -/
def startClear (s : State) (r : Nat) : State :=
  let s1 := setFault s { s.fault with clears := tset s.fault.clears r 0 }
  placeRequest (setCond s1 r .clearing) (.clear r) r

/-- Remove a clear record (R92). -/
def dropClear (s : State) (r : Nat) : State := setFault s { s.fault with clears := tdel s.fault.clears r }

/-- The acknowledgement of a CLEAR (R92): the lockout ends, the resource is judged against a target no longer forced, the CLEAR
waiters covering it complete DONE, and the resources that became STEADY are reported. -/
def clearAcked (s : State) (r : Nat) : State :=
  let s1 := setCond (dropClear s r) r .waiting
  let f := followTargets s s1 [r]
  judgeReports (completeWhere f.state (fun w => isClear w && covers w r) .done) f.reports []

/-- The last allowed attempt of a CLEAR failed (R92): the resource is LOCKED again, CLEAR_FAILED is handed, and the CLEAR waiters
covering the resource complete FAULTED. -/
def clearFailed (s : State) (r : Nat) (kind : FaultKind) (nak : Nat) : State :=
  let s1 := setCond (dropClear s r) r .locked
  completeWhere (handEvent s1 { plainEvent .clearFailed r (faultKindCode kind) with nak := nak })
    (fun w => isClear w && covers w r) .faulted

end Sys2Proof.Machine
end

