-- ==== Sys2Proof/Machine/Sequencer.lean ====
section
/-! DEFINITION. The Transition Sequencer: moves, eligibility, allocation and the life of a step (chapter 3). -/

namespace Sys2Proof.Machine

/-! ## The next move -/

/-- A move that a candidate would make (R50, R51). -/
structure Move where
  direction : Direction
  purpose   : Purpose
  goal      : Setting
  deriving DecidableEq, Repr

/-- A candidate for a step: WAITING, not on the Cut List, and the run state is neither STOPPED nor LOADING (R50, R73). -/
def isCandidate (s : State) (r : Nat) : Bool :=
  match resourceAt s r with
  | none => false
  | some x =>
    x.cond == .waiting && !onCutList s r && s.run.state != .stopped && s.run.state != .loading

/-- The setpoint that one SETPOINT step reaches from `a` toward `b`: by the distance or the slew, whichever is smaller (R52). -/
def slewToward (a b slew : Nat) : Nat := if a ≤ b then a + min (b - a) slew else a - min (a - b) slew

/-- The setpoint that a RAISE to a level carries: the nominal at ON for RAIL and CLOCK (R51). -/
def raiseSetpoint (cfg : ResourceConfig) (l : Level) : Option Nat :=
  if l = .on ∧ cfg.kind ≠ .gate then cfg.nominal else none

/-- The ALIGN move: to the recorded level and setpoint; LOWER to OFF, else RAISE (R70). -/
def alignMove (x : Resource) : Move :=
  { direction := if x.level = .off then .lower else .raise, purpose := .align,
    goal := { level := x.level, setpoint := x.setpoint } }

/-- The NORMAL move from the recorded values toward the target (R50 to R52). Recorded values equal to the target give no move. -/
def normalMove (x : Resource) (t : Setting) : Option Move :=
  if levelRank t.level < levelRank x.level then
    some { direction := .lower, purpose := .normal, goal := { level := t.level, setpoint := none } }
  else if levelRank x.level < levelRank t.level then
    some { direction := .raise, purpose := .normal, goal := { level := t.level, setpoint := raiseSetpoint x.cfg t.level } }
  else
    match x.level, x.setpoint, t.setpoint, x.cfg.slew with
    | .on, some a, some b, some slew =>
      if a = b then none
      else some { direction := .setpoint, purpose := .normal, goal := { level := .on, setpoint := some (slewToward a b slew) } }
    | _, _, _, _ => none

/-- The move of a resource, from the tables as they stand (R50). -/
def moveOf (s : State) (r : Nat) (x : Resource) : Option Move :=
  if x.alignOwed then some (alignMove x)
  else match targetOf s r with
    | none => none
    | some t => normalMove x t

/-- A move whose direction is RAISE, or SETPOINT upward, from a recorded setpoint (R48, R55). -/
def moveRises (x : Resource) (m : Move) : Bool :=
  match m.direction with
  | .raise => true
  | .lower => false
  | .setpoint => decide (x.setpoint.getD 0 < m.goal.setpoint.getD 0)

/-! ## Eligibility -/

/-- Whether a resource owes alignment. -/
def owesAlignment (s : State) (r : Nat) : Bool :=
  match resourceAt s r with
  | none => false
  | some x => x.alignOwed

/-- A NORMAL LOWER to `l` is eligible: every child is recorded at or below `l`, has no step and owes no alignment (R53). -/
def lowerEligible (s : State) (r : Nat) (l : Level) : Bool :=
  (childrenOf s r).all fun c =>
    match resourceAt s c with
    | none => true
    | some y => levelLe y.level l && !hasStep s c && !y.alignOwed

/-- A NORMAL RAISE to `l` is eligible: every parent is recorded at or above `l`, has no step and owes no alignment (R54). -/
def raiseEligible (s : State) (x : Resource) (l : Level) : Bool :=
  x.cfg.parents.all fun p =>
    match resourceAt s p with
    | none => false
    | some y => levelLe l y.level && !hasStep s p && !y.alignOwed

/-- An ALIGN move is eligible: to OFF when no child owes alignment, above OFF when no parent does (R71). -/
def alignEligible (s : State) (r : Nat) (x : Resource) : Bool :=
  if x.level = .off then (childrenOf s r).all fun c => !owesAlignment s c
  else x.cfg.parents.all fun p => !owesAlignment s p

/-- Whether a move may be placed (R53 to R55, R71): no RAISE and no upward SETPOINT while SAFE is set or in STOPPING. -/
def isEligible (s : State) (r : Nat) (x : Resource) (m : Move) : Bool :=
  !(moveRises x m && risesBarred s)
    && (match m.purpose, m.direction with
        | .align, _ => alignEligible s r x
        | .normal, .lower => lowerEligible s r m.goal.level
        | .normal, .raise => raiseEligible s x m.goal.level
        | .normal, .setpoint => true)

/-! ## Allocation -/

/-- The class of a move, 1 to 6 (R56). -/
def moveClass (x : Resource) (m : Move) : Nat :=
  match m.purpose, m.direction with
  | .normal, .lower => 1
  | .align, .lower => 2
  | .normal, .setpoint => if moveRises x m then 4 else 3
  | .align, _ => 5
  | .normal, .raise => 6

/-- The eligible moves of the candidates, in increasing resource number. -/
def eligibleMoves (s : State) : List (Nat × Resource × Move) :=
  s.resources.filterMap fun e =>
    if isCandidate s e.1 then
      match moveOf s e.1 e.2 with
      | some m => if isEligible s e.1 e.2 m then some (e.1, e.2, m) else none
      | none => none
    else none

/-- The choice among eligible moves: by class first, then by lowest resource number (R56). -/
def bestMove : List (Nat × Resource × Move) → Option (Nat × Resource × Move)
  | [] => none
  | e :: es =>
    match bestMove es with
    | none => some e
    | some b => if moveClass b.2.1 b.2.2 < moveClass e.2.1 e.2.2 then some b else some e

/-- Place a step for a move in a slot: its resource is STEPPING and the step requests the link (R57). -/
def placeStep (s : State) (k r : Nat) (x : Resource) (m : Move) : State :=
  let st : Step :=
    { resource := r, direction := m.direction, purpose := m.purpose
      origin := { level := x.level, setpoint := x.setpoint }, goal := m.goal
      retries := 0, early := false, state := .awaitingLink }
  placeRequest (setCond (setStep s k st) r .stepping) (.step k) r

/-- Fill one slot if it is FREE and a candidate has an eligible move (R56). -/
def fillSlot (s : State) (k : Nat) : State :=
  match stepAt s k with
  | some _ => s
  | none =>
    match bestMove (eligibleMoves s) with
    | none => s
    | some (r, x, m) => placeStep s k r x m

/-- An allocation: the FREE slots in increasing number, each choice judged with the steps already placed (R56). -/
def allocate (s : State) : State := (List.range Config.stepSlots).foldl fillSlot s

/-! ## The life of a step -/

/-- Judge the resources of a list by R20 and report those that become STEADY. -/
def judgeAndReport (s : State) (rs : List Nat) : State :=
  judgeReports (judgeConditions s rs) (becomeSteady s rs) []

/-- The end of a step (R64, R65): the slot is freed, an ALIGN releases its alignment, the condition is set against the target, and the
resource is reported, STEADY or WAITING. -/
def endStep (s : State) (k : Nat) (st : Step) : State :=
  let s1 := freeStep s k
  let s2 := if st.purpose = .align then modifyResource s1 st.resource fun x => { x with alignOwed := false } else s1
  let s3 := modifyResource s2 st.resource fun x => { x with cond := restingCondition s2 st.resource x }
  judgeReports s3 [st.resource] []

/-- The settle limit of a resource in timer units (R9). -/
def settleTimer (s : State) (r : Nat) : Nat :=
  match resourceAt s r with
  | none => 0
  | some x => x.cfg.settleLimit * Config.settleUnits

/-- The hold of a resource in timer units (R9). -/
def holdTimer (s : State) (r : Nat) : Nat :=
  match resourceAt s r with
  | none => 0
  | some x => x.cfg.hold * Config.holdUnits

/-- The retry limit of a resource (R10). -/
def retryLimit (s : State) (r : Nat) : Nat :=
  match resourceAt s r with
  | none => 0
  | some x => x.cfg.retryLimit

/-- Whether a step records its to values when it settles: a NORMAL RAISE or SETPOINT step (R59, R60). -/
def recordsAtSettle (st : Step) : Bool := st.purpose == .normal && st.direction != .lower

/-- A step enters HOLDING (R59, R60): it records what it records at settle, and with hold 0 it ends at once. -/
def enterHolding (s : State) (k : Nat) (st : Step) : State :=
  let s1 := if recordsAtSettle st then recordGoal s st else s
  if holdTimer s st.resource = 0 then endStep s1 k st
  else setStep s1 k { st with state := .holding (holdTimer s st.resource) }

/-- An ACK for a step in ISSUED (R59). -/
def stepAcked (s : State) (k : Nat) (st : Step) : State :=
  if st.early then enterHolding s k st
  else setStep s k { st with state := .settling (settleTimer s st.resource) }

/-- A SETTLED notice taken for a resource, against whatever step it has (R60). -/
def takeSettled (s : State) (r : Nat) : State :=
  match s.steps.find? fun e => e.2.resource == r with
  | none => s
  | some (k, st) =>
    match st.state with
    | .awaitingLink => s
    | .issued => setStep s k { st with early := true }
    | .settling _ => enterHolding s k st
    | .holding _ => s

/-- A step fails (R63): its slot is freed, and the Fault Unit takes the step fault. -/
def stepFails (s : State) (k : Nat) (st : Step) (kind : FaultKind) (nak : Nat) : State :=
  takeFault (freeStep s k) st.resource kind .step noFlags nak

/-- A failed attempt that is withdrawn instead of retried, under SAFE or in STOPPING (R62): a NORMAL step records its to values, an
ALIGN step's resource ceases to owe alignment, and the resource is judged. -/
def withdrawRetry (s : State) (k : Nat) (st : Step) : State :=
  let s1 := if st.purpose = .normal then recordGoal s st
    else modifyResource s st.resource fun x => { x with alignOwed := false }
  judgeAndReport (withdrawStep s1 k st) [st.resource]

/-- A NAK (`some reason`) or a timeout (`none`) for a step in ISSUED (R62). -/
def stepAttemptFailed (s : State) (k : Nat) (st : Step) (nak : Option Nat) : State :=
  if st.retries < retryLimit s st.resource then
    if risesTowards st && risesBarred s then withdrawRetry s k st
    else
      placeRequest (setStep s k { st with state := .awaitingLink, retries := st.retries + 1, early := false }) (.step k) st.resource
  else
    match nak with
    | some reason => stepFails s k st .refused reason
    | none => stepFails s k st .noResponse 0

/-- The grant of a step's request (R58): the step is ISSUED; a NORMAL LOWER records its to level at its first issue. -/
def issueStep (s : State) (k : Nat) (st : Step) : State :=
  let s1 := setStep s k { st with state := .issued }
  if st.purpose = .normal ∧ st.direction = .lower ∧ st.retries = 0 then recordGoal s1 st else s1

end Sys2Proof.Machine
end

