-- ==== Sys2Proof/Machine/Link.lean ====
section
/-! DEFINITION. The Link Controller: the arbiter, transactions and outcomes, notices and the poller (chapter 5), and the QUERY result (R141). -/

namespace Sys2Proof.Machine

/-! ## The result of a QUERY -/

/-- The sample age of a QUERY result: the difference of run times modulo 2^32, at most 65,535 (R141, R182). -/
def sampleAge (now taken : BitVec 32) : Nat := min 65535 (now - taken).toNat

/-- Bytes 4 to 15 of a completion that carries a QUERY result (R141, 11.2). -/
def queryResult (s : State) (d : Domain) (r : Nat) (x : Resource) : List Byte :=
  let voteCode : Nat := match cellAt s d r with
    | some c => levelCode c.level
    | none => 0
  [ BitVec.ofNat 8 (levelCode x.level + 4 * levelCode (targetLevel s r) + 16 * voteCode + 128 * x.lastSample.isSome.toNat),
    BitVec.ofNat 8 (x.setpoint.getD 0xFF),
    BitVec.ofNat 8 (conditionCode x.cond),
    BitVec.ofNat 8 ((x.lastFault.map faultKindCode).getD 0),
    BitVec.ofNat 8 x.faultCount,
    0 ]
  ++ bytesLE 2 ((x.lastSample.map fun p => sampleAge s.run.runTime p.time).getD 0)
  ++ bytesLE 4 ((x.lastSample.map fun p => sampleWord p.reading).getD 0)

/-! ## The arbiter -/

/-- The oldest request of the highest non-empty class (R101). -/
def pickRequest (rs : List Request) : Option Request :=
  [LinkClass.urgent, .step, .clear, .sample, .poll].findSome? fun c => rs.find? fun q => classOf q.requester == c

/-- Send a frame: the transaction record is filled, the response timer starts at 200 µs and the link is BUSY (R95, R101). -/
def sendFrame (s : State) (q : Requester) (kind : TransactionKind) (r : Nat) (x : Resource) (frame : List Byte) : State :=
  let t : Transaction :=
    { kind := kind, endpoint := x.cfg.endpoint, channel := x.cfg.channel, cls := classOf q, requester := some q, resource := r
      timer := Config.responseUnits, voided := false, frame := frame }
  setLink s { s.link with transaction := some t }

/-- Send a SET (R96). -/
def sendSet (s : State) (q : Requester) (r : Nat) (x : Resource) (goal : Setting) : State :=
  sendFrame s q .set r x (setFrame x.cfg.endpoint x.cfg.channel goal)
/-- Send a SAMPLE (R97). -/
def sendSample (s : State) (q : Requester) (r : Nat) (x : Resource) : State :=
  sendFrame s q .sample r x (sampleFrame x.cfg.endpoint x.cfg.channel)
/-- Send a CLEAR (R98). -/
def sendClear (s : State) (q : Requester) (r : Nat) (x : Resource) : State :=
  sendFrame s q .clear r x (clearFrame x.cfg.endpoint x.cfg.channel)

/-- OFF, with no setpoint: what the Cut List commands (R84). -/
def offSetting : Setting := { level := .off, setpoint := none }

/-- The slots in the poller's order: from the cursor upward, wrapping from 63 to 0 (R107). -/
def pollOrder (cursor : Nat) : List Nat :=
  (List.range Config.resourceSlots).map fun i => (cursor + i) % Config.resourceSlots

/-- Whether the poller may choose a slot: present, above OFF, STEADY or WAITING, not on the Cut List (R107). -/
def pollable (s : State) (r : Nat) : Bool :=
  match resourceAt s r with
  | none => false
  | some x => x.level != .off && (x.cond == .steady || x.cond == .waiting) && !onCutList s r

/-- The grant of the POLL request: the choice of R107 on a first attempt, the same resource on a retry (R108). -/
def grantPoll (s : State) : State :=
  match s.link.currentPoll with
  | some p =>
    match resourceAt s p.resource with
    | some x => sendSample s .poller p.resource x
    | none => s
  | none =>
    match (pollOrder s.link.cursor).find? (pollable s) with
    | none => setLink s { s.link with pollPending := false }
    | some r =>
      match resourceAt s r with
      | some x =>
        sendSample (setLink s { s.link with currentPoll := some { resource := r, attempts := 0 }
                                            cursor := (r + 1) % Config.resourceSlots }) .poller r x
      | none => s

/-- Serve a granted request, which has been removed from its class (R101). -/
def serveRequest (s : State) (q : Request) : State :=
  match q.requester with
  | .poller => grantPoll s
  | .step k =>
    match stepAt s k, resourceAt s q.resource with
    | some st, some x => sendSet (issueStep s k st) (.step k) q.resource x st.goal
    | _, _ => s
  | .cutList =>
    match resourceAt s q.resource with
    | some x => sendSet s .cutList q.resource x offSetting
    | none => s
  | .clear r =>
    match resourceAt s q.resource with
    | some x => sendClear s (.clear r) q.resource x
    | none => s
  | .query k =>
    match resourceAt s q.resource with
    | some x => sendSample s (.query k) q.resource x
    | none => s

/-- A grant: taken when the link is IDLE and a request is held (R101). -/
def grantLink (s : State) : State :=
  match s.link.transaction, pickRequest s.link.requests with
  | none, some q => serveRequest (removeRequest s q.requester) q
  | _, _ => s

/-! ## Outcomes -/

/-- The outcomes of a transaction (R99). -/
inductive LinkOutcome where
  | ack
  | nak (reason : Nat)
  | data (reading : Reading)
  | timeout
  deriving DecidableEq, Repr

/-- The reason of a NAK, if the outcome is one: the other failed outcome is the timeout. -/
def nakOf : LinkOutcome → Option Nat
  | .nak reason => some reason
  | .ack | .data _ | .timeout => none

/-- The fault kind that a failed attempt reports for the Cut List and for clear records: REFUSED after a NAK, NO_RESPONSE after a timeout
(R85, R92). -/
def failureKind (nak : Option Nat) : FaultKind := if nak.isSome then .refused else .noResponse

/-- Judge an answer frame against the transaction in flight: a valid answer is its outcome, any other is a timeout (R99). -/
def judgeAnswer (t : Transaction) (frame : List Byte) : LinkOutcome :=
  match answerOf frame with
  | none => .timeout
  | some (endpoint, channel, body) =>
    if endpoint ≠ t.endpoint ∨ channel ≠ t.channel then .timeout
    else match body, t.kind with
      | .nak reason, _ => .nak reason
      | .ack, .set => .ack
      | .ack, .clear => .ack
      | .ack, .sample => .timeout
      | .data reading, .sample => .data reading
      | .data _, .set => .timeout
      | .data _, .clear => .timeout

/-- Write the last sample of a resource with the run time as its sample time (R18, R109). -/
def recordSample (s : State) (r : Nat) (reading : Reading) : State :=
  modifyResource s r fun x => { x with lastSample := some { reading := reading, time := s.run.runTime } }

/-- The front Cut List entry's SET OFF ended (R84, R85). -/
def cutOutcome (s : State) (o : LinkOutcome) : State :=
  match s.fault.cutList with
  | [] => s
  | e :: rest =>
    match o with
    | .ack => popCut s
    | .nak _ | .timeout | .data _ =>
      if e.attempts < retryLimit s e.resource then
        placeUrgent (setFault s { s.fault with cutList := { e with attempts := e.attempts + 1 } :: rest })
      else
        let event := { plainEvent .collapseFailed e.resource (faultKindCode (failureKind (nakOf o))) with nak := (nakOf o).getD 0 }
        popCut (handEvent s event)

/-- A clear record's CLEAR ended (R92). -/
def clearOutcome (s : State) (r : Nat) (o : LinkOutcome) : State :=
  match tget s.fault.clears r with
  | none => s
  | some attempts =>
    match o with
    | .ack => clearAcked s r
    | .nak _ | .timeout | .data _ =>
      if attempts < retryLimit s r then
        placeRequest (setFault s { s.fault with clears := tset s.fault.clears r (attempts + 1) }) (.clear r) r
      else clearFailed s r (failureKind (nakOf o)) ((nakOf o).getD 0)

/-- A QUERY waiter's SAMPLE ended (R109, R110). On its last failure the waiter completes FAULTED before the sample fault is taken, as R110
orders them, so its completion precedes the FAULTED completions of the fault's lock whatever the entry numbers; that R110 and not the
entry order of R163 decides this is the model's (DESIGN CHOICE, entry 21). -/
def queryOutcome (s : State) (k : Nat) (o : LinkOutcome) : State :=
  match tget s.waiters k with
  | none => s
  | some w =>
    match w.body with
    | .vote _ _ | .list _ | .fence _ | .clear _ => s
    | .query r attempts =>
      match o with
      | .data reading =>
        let s1 := recordSample s r reading
        match resourceAt s1 r with
        | none => s1
        | some x => takeFlags (completeWith s1 k .done (queryResult s1 w.domain r x)) r reading.flags
      | .nak _ | .timeout | .ack =>
        if attempts < retryLimit s r then
          placeRequest (setWaiters s (tset s.waiters k { w with body := .query r (attempts + 1) })) (.query k) r
        else takeFault (completeWaiter s k .faulted) r .noResponse .sample noFlags 0

/-- The poller ends its poll: no current poll, flag clear (R108). -/
def endPoll (s : State) : State := setLink s { s.link with currentPoll := none, pollPending := false }

/-- The poll's SAMPLE ended (R108, R109). -/
def pollOutcome (s : State) (o : LinkOutcome) : State :=
  match s.link.currentPoll with
  | none => s
  | some p =>
    match o with
    | .data reading => takeFlags (recordSample (endPoll s) p.resource reading) p.resource reading.flags
    | .nak _ | .timeout | .ack =>
      if p.attempts < retryLimit s p.resource then
        placeRequest (setLink s { s.link with currentPoll := some { p with attempts := p.attempts + 1 } }) .poller p.resource
      else takeFault (endPoll s) p.resource .noResponse .sample noFlags 0

/-- A step's SET ended (R59, R62). -/
def stepOutcome (s : State) (k : Nat) (o : LinkOutcome) : State :=
  match stepAt s k with
  | none => s
  | some st =>
    match o with
    | .ack => stepAcked s k st
    | .nak _ | .timeout | .data _ => stepAttemptFailed s k st (nakOf o)

/-- An outcome with no requester (R100): only the DATA of a SAMPLE made for a QUERY is applied, in RUNNING or STOPPING, when the slot was
not reconfigured meanwhile (R110). -/
def orphanOutcome (s : State) (t : Transaction) (o : LinkOutcome) : State :=
  match o with
  | .data reading =>
    if t.cls = .sample ∧ t.voided = false ∧ (s.run.state = .running ∨ s.run.state = .stopping) then
      takeFlags (recordSample s t.resource reading) t.resource reading.flags
    else s
  | .ack | .nak _ | .timeout => s

/-- Deliver an outcome to the requester that the record names (R100). -/
def deliverOutcome (s : State) (t : Transaction) (o : LinkOutcome) : State :=
  match t.requester with
  | none => orphanOutcome s t o
  | some (.step k) => stepOutcome s k o
  | some .cutList => cutOutcome s o
  | some (.clear r) => clearOutcome s r o
  | some (.query k) => queryOutcome s k o
  | some .poller => pollOutcome s o

/-- The transaction in flight ends with an outcome: the link is IDLE and the outcome is delivered (R99, R100). -/
def endTransaction (s : State) (t : Transaction) (o : LinkOutcome) : State :=
  deliverOutcome (setLink s { s.link with transaction := none }) t o

/-! ## Notices -/

/-- The notice credit is open: the notices in the FIFO, plus one if a frame is being received, are below 16 (R103). -/
def creditOpen (l : LinkController) : Bool := decide (l.notices.length + l.receiving.isSome.toNat < Config.noticeCapacity)

/-- The STRAY_NOTICE reasons (11.3). -/
inductive StrayReason where
  | badFrame | noCredit | noResource
  deriving DecidableEq, Repr

/-- The STRAY_NOTICE reason codes (11.3). -/
def strayReasonCode : StrayReason → Nat
  | .badFrame => 1
  | .noCredit => 2
  | .noResource => 3

/-- A STRAY_NOTICE event: no subject, and the endpoint and channel where known (R104, R194). -/
def strayEvent (reason : StrayReason) (place : Option (Nat × Nat)) : Event :=
  match place with
  | some (endpoint, channel) =>
    { plainEvent .strayNotice 0xFF (strayReasonCode reason) with endpoint := endpoint, channel := channel }
  | none => { plainEvent .strayNotice 0xFF (strayReasonCode reason) with endpoint := 0xFF, channel := 0xFF }

/-- Route a notice that has left the FIFO, by the endpoint and channel it names (R105). -/
def routeNotice (s : State) (n : Notice) : State :=
  match slotCarrying s n.endpoint n.channel with
  | none => handEvent s (strayEvent .noResource (some (n.endpoint, n.channel)))
  | some r =>
    match n.kind with
    | .settled => takeSettled s r
    | .alert flags => takeFlags s r flags

/-! ## Stopping the poller, voiding a slot's traffic -/

/-- The entry to STOPPED at the Link Controller (R105, R112): the poller stops, its request is removed and its SAMPLE runs to no
requester, and the FIFO is emptied. -/
def stopLink (s : State) : State :=
  let s1 := releaseRequester s .poller
  setLink s1 { s1.link with notices := [], pollTimer := none, pollPending := false, currentPoll := none }

/-- The Link Controller's values for a failed or abandoned load (R113). -/
def failedLoadLink (s : State) : State :=
  setLink s { s.link with notices := [], pollTimer := none, pollPending := false, currentPoll := none }

/-- A SAMPLE on the link for a slot is marked as that of a slot reconfigured meanwhile, and runs to no requester (R111). -/
def voidSample (r : Nat) (t : Transaction) : Transaction :=
  if t.kind = .sample ∧ t.resource = r then { t with requester := none, voided := true } else t

/-- Void the SAMPLE and POLL traffic of a slot that is reconfigured (R111), but for its QUERY waiters. -/
def voidTraffic (s : State) (r : Nat) : State :=
  let s1 := setLink s { s.link with transaction := s.link.transaction.map (voidSample r) }
  match s1.link.currentPoll with
  | some p => if p.resource = r then endPoll (removeRequest s1 .poller) else s1
  | none => s1

end Sys2Proof.Machine
end

