-- ==== Sys2Proof/Machine/Validation.lean ====
section
/-! DEFINITION. The checks on resource records and on the control block (R14, R186, R192), and the tables of a successful load (R187). -/

namespace Sys2Proof.Machine

/-! ## The supply tree -/

/-- Order 2 of R14: no two present records carry the same endpoint and channel (R5). -/
def endpointsDistinct (t : Table ResourceConfig) : Bool :=
  t.all fun a => t.all fun b => a.1 == b.1 || !(a.2.endpoint == b.2.endpoint && a.2.channel == b.2.channel)

/-- Order 3 of R14: parents name present slots other than the resource, without repetition (R6). -/
def parentsGood (t : Table ResourceConfig) : Bool :=
  t.all fun e => e.2.parents.all (fun p => p != e.1 && tmem t p) && decide e.2.parents.Nodup

/-- The slots whose parents are all in `done`. -/
def chainRound (t : Table ResourceConfig) (done : List Nat) : List Nat :=
  tkeys (t.filter fun e => e.2.parents.all done.contains)

/-- The slots on which every parent chain has at most `n` resources (R7). -/
def chainsWithin (t : Table ResourceConfig) : Nat → List Nat
  | 0 => []
  | n + 1 => chainRound t (chainsWithin t n)

/-- No parent chain has more than `n` resources. -/
def allChainsWithin (t : Table ResourceConfig) (n : Nat) : Bool :=
  (tkeys t).all fun r => (chainsWithin t n).contains r

/-- Order 4 of R14: the parent relation is acyclic. With 64 slots it is exactly when no chain has more than 64 resources. -/
def isAcyclic (t : Table ResourceConfig) : Bool := allChainsWithin t Config.resourceSlots

/-- Order 5 of R14: no chain is longer than 8 resources. -/
def isShallow (t : Table ResourceConfig) : Bool := allChainsWithin t Config.chainLimit

/-- Order 6 of R14 at load: no initial level above that of a parent (R13). -/
def initialOrdered (t : Table ResourceConfig) : Bool :=
  t.all fun e => e.2.parents.all fun p =>
    match tget t p with
    | none => true
    | some q => levelLe e.2.initial q.initial

/-- A mask valid for the kind (R3). -/
def maskValid (cfg : ResourceConfig) : Bool :=
  match cfg.kind with
  | .rail | .clock => cfg.mask.on
  | .gate => cfg.mask.retain || cfg.mask.on

/-- Order 7 of R14: the mask is valid for the kind and supports the initial level (R3, R13). -/
def maskGood (cfg : ResourceConfig) : Bool := maskValid cfg && supports cfg.mask cfg.initial

/-- The checks of R14 on a new configuration standing in slot `i` of the present ones, but for order 1, which `configOf` makes. -/
def configAccepted (t : Table ResourceConfig) (i : Nat) (cfg : ResourceConfig) : Bool :=
  let t' := tset t i cfg
  endpointsDistinct t' && parentsGood t' && isAcyclic t' && isShallow t' && cfg.initial == .off && maskGood cfg

/-- The configurations of the present slots. -/
def presentConfigs (s : State) : Table ResourceConfig := s.resources.map fun e => (e.1, e.2.cfg)

/-! ## The control block -/

/-- The 4-byte words of a record. -/
def wordSum {n : Nat} (x : BitVec n) (words : Nat) : Nat :=
  (List.range words).foldl (fun acc i => acc + fieldOf x (4 * i) 4) 0

/-- Order 3 of R186: the 393 words of the block sum to 0 modulo 2^32. -/
def checksumGood (header : BitVec 256) (body : BitVec 12320) : Bool := (wordSum header 8 + wordSum body 385) % 2 ^ 32 == 0

/-- Resource record `i` of the block: offset 0x020 of the block is offset 0 of the body (11.1). -/
def resourceRecord (body : BitVec 12320) (i : Nat) : BitVec 128 := body.extractLsb' (128 * i) 128
/-- Grant record `i` of the block (offset 0x420). -/
def grantRecord (body : BitVec 12320) (i : Nat) : BitVec 64 := body.extractLsb' (8 * 0x400 + 64 * i) 64
/-- Domain descriptor `i` of the block (offset 0x520). -/
def domainDescriptor (body : BitVec 12320) (i : Nat) : BitVec 256 := body.extractLsb' (8 * 0x500 + 256 * i) 256

/-- The slots whose record is marked present (R1). -/
def presentRecords (body : BitVec 12320) : Table (BitVec 128) :=
  (List.range Config.resourceSlots).filterMap fun i =>
    if recordPresent (resourceRecord body i) then some (i, resourceRecord body i) else none

/-- The configurations of the present records whose fields are in range. -/
def blockConfigs (body : BitVec 12320) : Table ResourceConfig :=
  (presentRecords body).filterMap fun e => (configOf e.2).map fun cfg => (e.1, cfg)

/-- The grant entries of the block: a record marked invalid gives an invalid entry (R127). -/
def blockGrants (body : BitVec 12320) : Table Grant :=
  (List.range Config.grantEntries).filterMap fun i =>
    if grantValid (grantRecord body i) then (grantOf (grantRecord body i)).map fun g => (i, g) else none

/-- Order 4 of R186, RANGE (R192). -/
def rangesGood (header : BitVec 256) (body : BitVec 12320) : Bool :=
  (presentRecords body).all (fun e => (configOf e.2).isSome)
  && (List.range Config.grantEntries).all (fun i => !grantValid (grantRecord body i) || (grantOf (grantRecord body i)).isSome)
  && Config.allDomains.all (fun d =>
      let x := domainDescriptor body d.val
      decide (1 ≤ byteOf x 1 ∧ byteOf x 1 ≤ 8 ∧ byteOf x 0 ≤ 1))
  && decide (fieldOf header 8 2 ≤ 255)

/-- A ring's placement: the base a multiple of its alignment, and no entry past the top of the address space (R165). -/
def ringFits (base size entry align : Nat) : Bool := base % align == 0 && decide (base + size * entry ≤ 2 ^ 64)

/-- A size code in a range of codes (chapter 11). -/
def sizeCodeGood (low code : Nat) : Bool := decide (low ≤ code ∧ code ≤ 8)

/-- A domain's ring descriptor is good (R165, R192). -/
def descriptorGood (x : BitVec 256) : Bool :=
  sizeCodeGood 2 (byteOf x 3 % 16) && sizeCodeGood 2 (byteOf x 3 / 16)
  && ringFits (fieldOf x 8 8) (2 ^ (byteOf x 3 % 16)) 32 32
  && ringFits (fieldOf x 16 8) (2 ^ (byteOf x 3 / 16)) 16 16
  && fieldOf x 24 8 % 4 == 0

/-- The header's event ring descriptor is good (R177, R192). -/
def eventDescriptorGood (header : BitVec 256) : Bool :=
  sizeCodeGood 3 (byteOf header 0x0A)
  && ringFits (fieldOf header 0x10 8) (2 ^ byteOf header 0x0A) 16 16
  && fieldOf header 0x18 8 % 4 == 0

/-- Order 12 of R186, RING. -/
def ringsGood (header : BitVec 256) (body : BitVec 12320) : Bool :=
  Config.allDomains.all (fun d => descriptorGood (domainDescriptor body d.val)) && eventDescriptorGood header

/-- The checks made when the header returns (R185, R186, orders 1 and 2). -/
def headerError (header : BitVec 256) : Option LoadError :=
  if fieldOf header 0 4 ≠ Config.signature then some .signature
  else if fieldOf header 4 2 ≠ 1 ∨ fieldOf header 6 2 ≠ Config.controlBlockBytes then some .version
  else none

/-- The rest of the validation (R186, orders 3 to 12): the first check that fails. -/
def bodyError (header : BitVec 256) (body : BitVec 12320) : Option LoadError :=
  let t := blockConfigs body
  if !checksumGood header body then some .checksum
  else if !rangesGood header body then some .range
  else if !endpointsDistinct t then some .endpointDup
  else if !parentsGood t then some .parentBad
  else if !isAcyclic t then some .cycle
  else if !isShallow t then some .depth
  else if !initialOrdered t then some .initialOrder
  else if !(t.all fun e => maskGood e.2) then some .mask
  else if byteOf (domainDescriptor body 0) 0 ≠ 1 then some .d0Disabled
  else if !ringsGood header body then some .ring
  else none

/-! ## The tables of a successful load -/

/-- A resource as a load leaves it (R24). -/
def loadedResource (cfg : ResourceConfig) : Resource :=
  { cfg := cfg, level := cfg.initial, setpoint := if cfg.initial = .on ∧ cfg.kind ≠ .gate then cfg.nominal else none
    cond := .waiting, alignOwed := true, lastFault := none, faultCount := 0, lastSample := none }

/-- A domain record as a load leaves it (R115). -/
def loadedDomain (x : BitVec 256) : DomainRec :=
  let enabled := byteOf x 0 == 1
  { enabled := enabled, posture := if enabled then some .active else none, weight := byteOf x 1, leasePeriod := byteOf x 2
    lease := if enabled then fullLease (byteOf x 2) else none }

/-- A ring descriptor (R165, 11.1). -/
def descriptorOf (x : BitVec 256) : RingDescriptor :=
  { sqBase := x.extractLsb' 64 64, sqSize := 2 ^ (byteOf x 3 % 16), cqBase := x.extractLsb' 128 64, cqSize := 2 ^ (byteOf x 3 / 16)
    msgAddr := x.extractLsb' 192 64, msgData := x.extractLsb' 32 32 }

/-- A queue as a load leaves it (R166). -/
def loadedQueue (x : BitVec 256) : Queue :=
  let enabled := byteOf x 0 == 1
  { resetQueue with desc := some (descriptorOf x), armed := enabled, state := if enabled then .enabled else .disabled }

/-- The event ring as a load leaves it (R177). -/
def loadedEvents (header : BitVec 256) : EventRing :=
  { desc := some { base := header.extractLsb' 128 64, size := 2 ^ byteOf header 0x0A, msgAddr := header.extractLsb' 192 64
                   msgData := header.extractLsb' 96 32 }
    tail := 0, head := 0, phase := true, dropped := 0, armed := true, enabled := true }

/-- The hold cells as a load leaves them: the initial levels above OFF (R27). -/
def loadedHolds (t : Table ResourceConfig) : Table Level :=
  t.filterMap fun e => if e.2.initial = .off then none else some (e.1, e.2.initial)

/-- The period timer at the full period; none when the period is 0 (R106). -/
def fullPeriod (ms : Nat) : Option Nat := if ms = 0 then none else some (ms * Config.unitsPerMs)

/-- The Link Controller as a load leaves it: the link state and a frame in reception stay (R113). -/
def loadedLink (l : LinkController) (period : Nat) : LinkController :=
  { l with requests := [], notices := [], pollPeriod := period, pollTimer := fullPeriod period, pollPending := false, cursor := 0
           currentPoll := none }

/-- One value per domain, D0 first. -/
def perDomain {α : Type} (f : Domain → α) : Vector α 8 := #v[f 0, f 1, f 2, f 3, f 4, f 5, f 6, f 7]

/-- A successful load: every table takes its load value together and the run state becomes ALIGNING (R187). -/
def loadTables (s : State) (header : BitVec 256) (body : BitVec 12320) : State :=
  { s with
    run := { s.run with state := .aligning }
    resources := (blockConfigs body).map fun e => (e.1, loadedResource e.2)
    votes := Vector.replicate 8 []
    holds := loadedHolds (blockConfigs body)
    domains := perDomain fun d => loadedDomain (domainDescriptor body d.val)
    grants := blockGrants body
    steps := []
    link := loadedLink s.link (fieldOf header 8 2)
    fault := resetFault
    waiters := []
    queues := perDomain fun d => loadedQueue (domainDescriptor body d.val)
    intake := { s.intake with current := 0, turn := 0 }
    events := loadedEvents header }

end Sys2Proof.Machine
end

