-- ==== Sys2Proof/Machine/CommandUnit.lean ====
section
/-! DEFINITION. The Command Unit: how a command is taken (R132), completed (R133) and given a waiter (R134), and the shared parts of the
commands' effects. -/

namespace Sys2Proof.Machine

/-! ## Taking and completing a command -/

/-- A command as the Command Unit holds it: the domain that sent it, its code and its tag (R131). -/
structure Ticket where
  domain : Domain
  code   : Nat
  tag    : BitVec 16

/-- Complete a command with the fetch reservation it arrived with (R133). -/
def finishWith (s : State) (t : Ticket) (status : Status) (payload : List Byte) : State :=
  postCompletion s false { domain := t.domain, code := t.code, tag := t.tag, status := status, payload := payload }

/-- Complete a command with no index and no result. -/
def finish (s : State) (t : Ticket) (status : Status) : State := finishWith s t status (indexPayload none)

/-- The administrative codes, which D0 alone may send (R114, R132). -/
def isAdministrative (code : Nat) : Bool :=
  [codeGrant, codeRevoke, codeSetDomain, codeClearFault, codeClearSafe, codeReleaseHold, codeConfigResource].contains code

/-- The Command Unit takes a command (R132): the lease restarts; outside RUNNING it completes STOPPED; an administrative code from
another domain than D0 completes NOT_PERMITTED; else the command's own checks and effects. The code is one of the command codes. -/
def takeCommand (s : State) (t : Ticket) (own : State → State) : State :=
  let s1 := restartLease s t.domain
  if s.run.state ≠ .running then finish s1 t .stopped
  else if isAdministrative t.code && t.domain != 0 then finish s1 t .notPermitted
  else own s1

/-- Whether the Queue Engine can hand over a command of the domain: its queue is ENABLED, there is room for the reservation that the
command arrives with, and the run state is not LOADING or ALIGNING, where every fetch is void (R132, R171, R173, R174, R181; DEDUCED,
entry 4). -/
def canHandOver (s : State) (d : Domain) : Bool :=
  (queueAt s d).state == .enabled && hasRoom (queueAt s d) ((queueAt s d).reservations + fetchReservation s d)
    && s.run.state != .loading && s.run.state != .aligning

/-- A command handed over by the Queue Engine; one that it cannot hand over is never taken (entry 4). -/
def handOver (s : State) (t : Ticket) (own : State → State) : State :=
  if canHandOver s t.domain then takeCommand s t own else s

/-- The posture of a domain is DETACHED. -/
def isDetached (s : State) (d : Domain) : Bool := (domainAt s d).posture == some .detached

/-- A resource's condition is LOCKED or CLEARING. -/
def isLockedOut (s : State) (r : Nat) : Bool :=
  match resourceAt s r with
  | none => false
  | some x => x.cond == .locked || x.cond == .clearing

/-- Whether a waiter entry is free once the entries of some waiters are released (R134). -/
def entryFreeAfter (s : State) (released : List Nat) : Bool := (freeEntry (released.foldl tdel s.waiters)).isSome

/-! ## Grants -/

/-- Whether a grant entry matches a resource: the resource number with the bits outside the mask cleared equals the base (R123). -/
def grantMatches (g : Grant) (r : Nat) : Bool := r &&& g.idMask == g.idBase

/-- The valid entries of a domain that match a resource (R124). -/
def matchingGrants (grants : Table Grant) (d : Domain) (r : Nat) : List Grant :=
  (grants.filter fun e => e.2.domain == d.val && grantMatches e.2 r).map Prod.snd

/-- Whether a domain may cast a vote on a resource: D0 always; another when some entry matches, the level is at or below the highest max
level and a setpoint at ON is at or below the highest cap (R124). -/
def voteAllowed (grants : Table Grant) (d : Domain) (r : Nat) (vote : Setting) : Bool :=
  if d = 0 then true
  else
    let gs := matchingGrants grants d r
    !gs.isEmpty && levelLe vote.level (highestLevel (gs.map Grant.maxLevel))
      && (match vote.level, vote.setpoint with
          | .on, some sp => decide (sp ≤ (gs.map Grant.cap).foldl max 0)
          | _, _ => true)

/-! ## Writing and withdrawing cells -/

/-- Write some cells of a domain together, with what follows for targets (R28, R42). -/
def writeCells (s : State) (d : Domain) (cells : List (Nat × Setting)) : Followed :=
  followTargets s (cells.foldl (fun t c => writeCell t d c.1 c.2) s) []

/-- Withdraw some cells of a domain together, with what follows for targets (R29, R42). -/
def withdrawCells (s : State) (d : Domain) (rs : List Nat) : Followed :=
  followTargets s (rs.foldl (fun t r => dropCell t d r) s) []

/-- The entries of the domain's VOTE and LIST waiters that cover one of some resources (R158). -/
def supersededBy (s : State) (d : Domain) (rs : List Nat) : List Nat :=
  entriesWhere s fun w => w.domain == d && isVoteOrList w && coversAny w rs

/-- The entries of the domain's FENCE waiters whose set contains one of some resources (R154, R156). -/
def fencesCovering (s : State) (d : Domain) (rs : List Nat) : List Nat :=
  entriesWhere s fun w => w.domain == d && isFence w && coversAny w rs

/-- The body of a waiter of a vote or a list, from its unsatisfied entries. -/
abbrev VoteWaiter := State → WaiterBody

/-- The effect of a VOTE or VOTE_LIST that has passed its checks (R136, R138). `cells` are the votes, `lockedStatus` the index payload of the
LOCKED outcome, `body` the waiter that the deferred case leaves, from the state in which the cells are written. -/
def castVotes (s : State) (t : Ticket) (await : Bool) (deadline : BitVec 16) (cells : List (Nat × Setting)) (lockedPayload : List Byte)
    (body : VoteWaiter) : State :=
  let rs := cells.map Prod.fst
  let superseded := supersededBy s t.domain rs
  let written := (writeCells s t.domain cells).state
  let anyLocked := rs.any (isLockedOut s)
  let satisfied := cells.all fun c => satisfiedAt written c.1 c.2
  let deferred := !anyLocked && await && !isDetached s t.domain && !satisfied
  if deferred && !entryFreeAfter s superseded then finish s t .waitersFull
  else
    let s1 := completeEntries s superseded .superseded
    let f := writeCells s1 t.domain cells
    let s2 := judgeReports f.state f.reports (fencesCovering f.state t.domain rs)
    if deferred then
      createWaiter s2 { domain := t.domain, tag := t.tag, body := body written, deadline := deadlineTimer deadline }
    else if anyLocked then finishWith s2 t .locked lockedPayload
    else if !await then finish s2 t .done
    else if isDetached s t.domain then finish s2 t .detached
    else finish s2 t .satisfied

/-! ## Postures and leases -/

/-- Write a posture and what it does to the lease: ACTIVE and DROWSY restart it at the full period, DETACHED stops it (R117, item 1). -/
def writePosture (s : State) (d : Domain) (p : Posture) : State :=
  let x := domainAt s d
  setDomainRec s d { x with posture := some p, lease := if p = .detached then none else fullLease x.leasePeriod }

/-- A change of posture (R117, items 1 to 3): the record, the targets, and on entering DETACHED the DETACHED completions. -/
def changePosture (s : State) (d : Domain) (p : Posture) : Followed :=
  let f := followTargets s (writePosture s d p) []
  { state := if p = .detached then completeWhere f.state (fun w => w.domain == d) .detached else f.state, reports := f.reports }

/-! ## Grant changes -/

/-- The cells of a domain that a grant table does not allow (R125). -/
def disallowedCells (s : State) (grants : Table Grant) (d : Domain) : List Nat :=
  ((cellsOf s d).filter fun e => !voteAllowed grants d e.1 e.2).map Prod.fst

/-- Replace a grant entry, withdraw the cells of the domain that it named which the table no longer allows, and complete that domain's
waiters on them REVOKED (R125). -/
def changeGrant (s : State) (entry : Nat) (contents : Option Grant) : State :=
  let old := tget s.grants entry
  let grants := match contents with
    | some g => tset s.grants entry g
    | none => tdel s.grants entry
  let s1 := setGrants s grants
  match old.bind fun g => Config.allDomains.find? fun d => d.val == g.domain with
  | none => s1
  | some d =>
    let lost := disallowedCells s1 grants d
    let f := withdrawCells s1 d lost
    let s2 := completeWhere f.state (fun w => w.domain == d && (isVoteOrList w || isFence w) && coversAny w lost) .revoked
    judgeReports s2 f.reports []

/-! ## Enabling and disabling -/

/-- Disable a domain (R129). -/
def disableDomain (s : State) (d : Domain) : State :=
  let s1 := setDomainRec s d { domainAt s d with enabled := false, posture := none, lease := none }
  let s2 := setQueue s1 d { queueAt s1 d with state := .disabled }
  let s3 := killWrites (voidFetch (discardWaiters s2 d) d) (.queue d)
  let f := followTargets s (setCells s3 d []) []
  judgeReports f.state f.reports []

/-- Enable a domain that is disabled or HALTED (R130); outcomes of writes asked before count no longer (R175). -/
def enableDomain (s : State) (d : Domain) : State :=
  let x := domainAt s d
  let s1 := setDomainRec s d { x with enabled := true, posture := some .active, lease := fullLease x.leasePeriod }
  let s2 := setQueue (killWrites s1 (.queue d)) d
    { queueAt s1 d with sqTail := 0, sqHead := 0, cqTail := 0, cqHead := 0, cqPhase := true, reservations := 0, armed := true
                        state := .enabled }
  let f := followTargets s s2 []
  judgeReports f.state f.reports []

end Sys2Proof.Machine
end

