-- ==== Sys2Proof/Machine/DomainCommands.lean ====
section
/-! DEFINITION. The commands on the domain's own standing, on grants and on domains, and QUERY (6.2, 6.3, 6.4, 6.5, 7.3, 7.4, 7.6). -/

namespace Sys2Proof.Machine

/-! ## POSTURE and RENEW -/

/-- The own part of a POSTURE (R119, R140). -/
def postureCommand (t : Ticket) (code : Nat) (s : State) : State :=
  match postureOfCode code with
  | none => finish s t .badCommand
  | some p =>
    if p = .detached ∧ isDetached s t.domain = true then finish s t .done
    else
      let f := changePosture s t.domain p
      finish (judgeReports f.state f.reports []) t .done

/-- POSTURE (R119, R132, R140). -/
def execPosture (d : Domain) (tag : BitVec 16) (code : Byte) (s : State) : Host.Outcome State Fault Refusal :=
  let t : Ticket := { domain := d, code := codePosture, tag := tag }
  .next (handOver s t (postureCommand t code.toNat))

/-- The own part of a RENEW: its whole effect is the lease restart of R132 (R121, R140). -/
def renewCommand (t : Ticket) (s : State) : State := finish s t .done

/-- RENEW (R121, R132, R140). -/
def execRenew (d : Domain) (tag : BitVec 16) (s : State) : Host.Outcome State Fault Refusal :=
  let t : Ticket := { domain := d, code := codeRenew, tag := tag }
  .next (handOver s t (renewCommand t))

/-! ## QUERY -/

/-- The own part of a QUERY (R141, R142). -/
def queryCommand (t : Ticket) (fresh : Bool) (deadline : BitVec 16) (resource : Nat) (s : State) : State :=
  match resourceAt s resource with
  | none => finish s t .badResource
  | some x =>
    let result := queryResult s t.domain resource x
    if !fresh then finishWith s t .done result
    else if x.level = .off ∨ isLockedOut s resource = true then finishWith s t .done result
    else if isDetached s t.domain then finishWith s t .detached result
    else if entryFreeAfter s [] then
      createWaiter s { domain := t.domain, tag := t.tag, body := .query resource 0, deadline := deadlineTimer deadline }
    else finish s t .waitersFull

/-- QUERY (R132, R141, R142). -/
def execQuery (d : Domain) (tag : BitVec 16) (fresh : Bool) (deadline : BitVec 16) (resource : Byte) (s : State) :
    Host.Outcome State Fault Refusal :=
  let t : Ticket := { domain := d, code := codeQuery, tag := tag }
  .next (handOver s t (queryCommand t fresh deadline resource.toNat))

/-! ## GRANT and REVOKE -/

/-- The contents that a GRANT carries: `none` when they are badly formed, `some none` for an invalid entry (R147, R193). -/
def grantContents (rec : BitVec 64) : Option (Option Grant) :=
  if grantValid rec then (grantOf rec).map some else some none

/-- The own part of a GRANT (R125, R147). -/
def grantCommand (t : Ticket) (entry : Nat) (rec : BitVec 64) (s : State) : State :=
  if 31 < entry then finish s t .badCommand
  else match grantContents rec with
    | none => finish s t .badCommand
    | some contents => finish (changeGrant s entry contents) t .done

/-- GRANT (R125, R132, R147). -/
def execGrant (d : Domain) (tag : BitVec 16) (entry : Byte) (record : BitVec 64) (s : State) : Host.Outcome State Fault Refusal :=
  let t : Ticket := { domain := d, code := codeGrant, tag := tag }
  .next (handOver s t (grantCommand t entry.toNat record))

/-- The own part of a REVOKE (R125, R147). -/
def revokeCommand (t : Ticket) (entry : Nat) (s : State) : State :=
  if 31 < entry then finish s t .badCommand else finish (changeGrant s entry none) t .done

/-- REVOKE (R125, R132, R147). -/
def execRevoke (d : Domain) (tag : BitVec 16) (entry : Byte) (s : State) : Host.Outcome State Fault Refusal :=
  let t : Ticket := { domain := d, code := codeRevoke, tag := tag }
  .next (handOver s t (revokeCommand t entry.toNat))

/-! ## SET_DOMAIN -/

/-- The lease of an enabled target whose queue is ENABLED, under its new period: a DETACHED target's stays stopped (R128). -/
def releasePeriod (x : DomainRec) : DomainRec :=
  match x.posture with
  | some .active | some .drowsy => { x with lease := fullLease x.leasePeriod }
  | some .detached | none => x

/-- The effect of a SET_DOMAIN on its target (R128). -/
def setDomainEffect (s : State) (d : Domain) (weight period : Nat) (enable : Bool) : State :=
  let old := domainAt s d
  let s1 := setDomainRec s d { old with weight := weight, leasePeriod := period }
  if !enable then
    if old.enabled then disableDomain s1 d else s1
  else if old.enabled && (queueAt s d).state == .enabled then setDomainRec s1 d (releasePeriod (domainAt s1 d))
  else enableDomain s1 d

/-- The own part of a SET_DOMAIN (R128, R148). -/
def setDomainCommand (t : Ticket) (target weight period enable : Nat) (s : State) : State :=
  match Config.allDomains.find? fun d => d.val == target with
  | none => finish s t .badCommand
  | some d =>
    if d = 0 ∨ weight < 1 ∨ 8 < weight ∨ 1 < enable then finish s t .badCommand
    else finish (setDomainEffect s d weight period (enable == 1)) t .done

/-- SET_DOMAIN (R128, R132, R148). -/
def execSetDomain (d : Domain) (tag : BitVec 16) (target weight leasePeriod enable : Byte) (s : State) :
    Host.Outcome State Fault Refusal :=
  let t : Ticket := { domain := d, code := codeSetDomain, tag := tag }
  .next (handOver s t (setDomainCommand t target.toNat weight.toNat leasePeriod.toNat enable.toNat))

end Sys2Proof.Machine
end

