-- ==== Sys2Proof/Machine/Supervision.lean ====
section
/-! DEFINITION. The supervisor's commands on locks, SAFE, hold cells and resources (4.5, 4.6, 7.6). -/

namespace Sys2Proof.Machine

/-! ## CLEAR_FAULT -/

/-- The own part of a CLEAR_FAULT (R91, R149). -/
def clearFaultCommand (t : Ticket) (deadline : BitVec 16) (resource : Nat) (s : State) : State :=
  match resourceAt s resource with
  | none => finish s t .badResource
  | some x =>
    if x.cond ≠ .locked ∨ onCutList s resource = true then finish s t .inUse
    else if isDetached s t.domain then finish s t .detached
    else if !entryFreeAfter s [] then finish s t .waitersFull
    else
      createWaiter (startClear s resource)
        { domain := t.domain, tag := t.tag, body := .clear resource, deadline := deadlineTimer deadline }

/-- CLEAR_FAULT (R91, R132, R149). -/
def execClearFault (d : Domain) (tag deadline : BitVec 16) (resource : Byte) (s : State) : Host.Outcome State Fault Refusal :=
  let t : Ticket := { domain := d, code := codeClearFault, tag := tag }
  .next (handOver s t (clearFaultCommand t deadline resource.toNat))

/-! ## CLEAR_SAFE -/

/-- Every present resource is recorded at OFF, no slot holds a step and the Cut List is empty: the conditions of R90 and of R190. -/
def atRest (s : State) : Bool :=
  s.resources.all (fun e => e.2.level == .off) && s.steps.isEmpty && s.fault.cutList.isEmpty

/-- The SAFE_LEFT event (R90): the trip cause's resource and fault kind. -/
def safeLeftEvent (cause : Option TripCause) : Event :=
  match cause with
  | some c => plainEvent .safeLeft c.resource (faultKindCode c.kind)
  | none => plainEvent .safeLeft 0xFF 0

/-- Leaving SAFE (R90, items 1 to 5). -/
def leaveSafe (s : State) : State :=
  let s1 := handEvent (setFault s { s.fault with safe := false }) (safeLeftEvent s.fault.tripCause)
  let f := followTargets s (setFault s1 { s1.fault with tripCause := none }) []
  judgeReports f.state f.reports []

/-- The own part of a CLEAR_SAFE (R90, R150). -/
def clearSafeCommand (t : Ticket) (s : State) : State :=
  if !s.fault.safe then finish s t .done
  else if atRest s then finish (leaveSafe s) t .done
  else finish s t .inUse

/-- CLEAR_SAFE (R90, R132, R150). -/
def execClearSafe (d : Domain) (tag : BitVec 16) (s : State) : Host.Outcome State Fault Refusal :=
  let t : Ticket := { domain := d, code := codeClearSafe, tag := tag }
  .next (handOver s t (clearSafeCommand t))

/-! ## RELEASE_HOLD -/

/-- Replace the hold cells, with what follows for targets and the command's completion (R27, R144). -/
def releaseEffect (s : State) (t : Ticket) (holds : Table Level) : State :=
  let f := followTargets s (setHolds s holds) []
  finish (judgeReports f.state f.reports []) t .done

/-- The own part of a RELEASE_HOLD (R27, R144): one resource, or all for 0xFF. -/
def releaseHoldCommand (t : Ticket) (resource : Nat) (s : State) : State :=
  if resource = 0xFF then releaseEffect s t []
  else match resourceAt s resource with
    | none => finish s t .badResource
    | some _ => releaseEffect s t (tdel s.holds resource)

/-- RELEASE_HOLD (R27, R132, R144). -/
def execReleaseHold (d : Domain) (tag : BitVec 16) (resource : Byte) (s : State) : Host.Outcome State Fault Refusal :=
  let t : Ticket := { domain := d, code := codeReleaseHold, tag := tag }
  .next (handOver s t (releaseHoldCommand t resource.toNat))

/-! ## CONFIG_RESOURCE -/

/-- Check 1 of R145 on a present slot: at OFF, STEADY or LOCKED, no step, not on the Cut List. -/
def slotFree (s : State) (i : Nat) (x : Resource) : Bool :=
  x.level == .off && (x.cond == .steady || x.cond == .locked) && !hasStep s i && !onCutList s i

/-- Check 3 of R145: no domain cell and no hold cell on the slot, and no present resource names it as a parent. -/
def slotUnused (s : State) (i : Nat) : Bool :=
  Config.allDomains.all (fun d => (cellAt s d i).isNone) && (tget s.holds i).isNone && (childrenOf s i).isEmpty

/-- A slot as CONFIG_RESOURCE configures it, before its condition is judged (R23). -/
def configuredResource (cfg : ResourceConfig) : Resource :=
  { cfg := cfg, level := .off, setpoint := none, cond := .steady, alignOwed := false, lastFault := none, faultCount := 0
    lastSample := none }

/-- Change a slot whole (R23): its condition is STEADY if its target is OFF and WAITING otherwise. -/
def changeSlot (s : State) (i : Nat) (cfg : Option ResourceConfig) : State :=
  match cfg with
  | none => setResources s (tdel s.resources i)
  | some c =>
    let s1 := setResource s i (configuredResource c)
    setCond s1 i (if targetLevel s1 i = .off then .steady else .waiting)

/-- An accepted CONFIG_RESOURCE that changes the slot (R146). -/
def configEffect (s : State) (t : Ticket) (i : Nat) (cfg : Option ResourceConfig) : State :=
  let f := followTargets s (changeSlot s i cfg) []
  let s1 := completeWhere (voidTraffic f.state i) (fun w => isQuery w && covers w i) .faulted
  finish (judgeReports s1 f.reports []) t .done

/-- Check 3 of R145 applies: a present slot is removed or changes its kind. -/
def changesKind (old : Option Resource) (cfg : Option ResourceConfig) : Bool :=
  match old, cfg with
  | some _, none => true
  | some x, some c => x.cfg.kind != c.kind
  | none, _ => false

/-- Checks 1 and 3 of R145, and the effect, for a configuration that has passed check 2. -/
def configureSlot (s : State) (t : Ticket) (i : Nat) (cfg : Option ResourceConfig) : State :=
  if changesKind (resourceAt s i) cfg && !slotUnused s i then finish s t .inUse
  else if (resourceAt s i).isNone && cfg.isNone then finish s t .done
  else configEffect s t i cfg

/-- The own part of a CONFIG_RESOURCE (R145, R146, R193). A record whose present bit is clear carries no configuration. -/
def configCommand (t : Ticket) (slot : Nat) (carried : Bool) (rec : BitVec 128) (s : State) : State :=
  if 63 < slot then finish s t .badResource
  else if !(match resourceAt s slot with
            | none => true
            | some x => slotFree s slot x) then finish s t .inUse
  else if carried && recordPresent rec then
    match configOf rec with
    | none => finish s t .badCommand
    | some cfg =>
      if configAccepted (presentConfigs s) slot cfg then configureSlot s t slot (some cfg) else finish s t .badCommand
  else configureSlot s t slot none

/-- CONFIG_RESOURCE (R132, R145, R146). -/
def execConfigResource (d : Domain) (tag : BitVec 16) (slot : Byte) (carried : Bool) (record : BitVec 128) (s : State) :
    Host.Outcome State Fault Refusal :=
  let t : Ticket := { domain := d, code := codeConfigResource, tag := tag }
  .next (handOver s t (configCommand t slot.toNat carried record))

end Sys2Proof.Machine
end

