-- ==== Sys2Proof/Machine/Voting.lean ====
section
/-! DEFINITION. The commands that vote and withdraw: VOTE, VOTE_LIST, WITHDRAW and FENCE (7.2, 7.3, 7.5). -/

namespace Sys2Proof.Machine

/-! ## VOTE -/

/-- The own part of a VOTE (R135, R136). -/
def voteCommand (t : Ticket) (await : Bool) (deadline : BitVec 16) (resource level setpoint : Nat) (s : State) : State :=
  if s.fault.safe then finish s t .safe
  else match resourceAt s resource with
    | none => finish s t .badResource
    | some x =>
      match voteOf x.cfg.kind level setpoint with
      | none => finish s t .badCommand
      | some vote =>
        if !voteAllowed s.grants t.domain resource vote then finish s t .denied
        else castVotes s t await deadline [(resource, vote)] (indexPayload none) fun _ => .vote resource vote

/-- VOTE (R132, R135, R136). -/
def execVote (d : Domain) (tag : BitVec 16) (await : Bool) (deadline : BitVec 16) (resource level setpoint : Byte) (s : State) :
    Host.Outcome State Fault Refusal :=
  let t : Ticket := { domain := d, code := codeVote, tag := tag }
  .next (handOver s t (voteCommand t await deadline resource.toNat level.toNat setpoint.toNat))

/-! ## VOTE_LIST -/

/-- The checks of the entries of a list, from entry `k` on, `seen` being the resources of the earlier entries (R137, check 3): the votes, or
the index of the failing entry and its status. -/
def checkEntries (s : State) (d : Domain) : Nat → List Nat → List ListEntry → Except (Nat × Status) (List (Nat × Setting))
  | _, _, [] => .ok []
  | k, seen, e :: es =>
    match resourceAt s e.resource with
    | none => .error (k, .badResource)
    | some x =>
      match voteOf x.cfg.kind e.level e.setpoint with
      | none => .error (k, .badCommand)
      | some vote =>
        if seen.contains e.resource then .error (k, .badCommand)
        else if !voteAllowed s.grants d e.resource vote then .error (k, .denied)
        else match checkEntries s d (k + 1) (e.resource :: seen) es with
          | .error p => .error p
          | .ok votes => .ok ((e.resource, vote) :: votes)

/-- The entries that are not satisfied in a state: those that a LIST waiter covers (R138). -/
def unsatisfiedVotes (votes : List (Nat × Setting)) (s : State) : Table Setting :=
  (votes.filter fun c => !satisfiedAt s c.1 c.2).foldl (fun t c => tset t c.1 c.2) []

/-- The index of the lowest entry whose resource is LOCKED or CLEARING (R138). -/
def lockedIndex (s : State) (votes : List (Nat × Setting)) : Option Nat := votes.findIdx? fun c => isLockedOut s c.1

/-- The own part of a VOTE_LIST (R137, R138). -/
def voteListCommand (t : Ticket) (await : Bool) (deadline : BitVec 16) (count : Nat) (entries : BitVec 144) (s : State) : State :=
  if s.fault.safe then finish s t .safe
  else if count < 1 ∨ 6 < count then finish s t .badCommand
  else match checkEntries s t.domain 0 [] (listEntries entries count) with
    | .error (k, status) => finishWith s t status (indexPayload (some k))
    | .ok votes =>
      castVotes s t await deadline votes (indexPayload (lockedIndex s votes)) fun written => .list (unsatisfiedVotes votes written)

/-- VOTE_LIST (R132, R137, R138). -/
def execVoteList (d : Domain) (tag : BitVec 16) (await : Bool) (deadline : BitVec 16) (count : Byte) (entries : BitVec 144) (s : State) :
    Host.Outcome State Fault Refusal :=
  let t : Ticket := { domain := d, code := codeVoteList, tag := tag }
  .next (handOver s t (voteListCommand t await deadline count.toNat entries))

/-! ## WITHDRAW -/

/-- A FENCE waiter of the domain without the withdrawn resources (R139, R156). -/
def shrinkFence (d : Domain) (rs : List Nat) (w : Waiter) : Waiter :=
  if w.domain = d then
    match w.body with
    | .fence set => { w with body := .fence (set.filter fun r => !rs.contains r) }
    | .vote _ _ | .list _ | .query _ _ | .clear _ => w
  else w

/-- A withdrawal of the domain's cells on `rs`, `superseded` being the waiters it supersedes (R139). -/
def withdrawEffect (s : State) (t : Ticket) (rs superseded : List Nat) : State :=
  let fences := fencesCovering s t.domain rs
  let s1 := completeEntries s superseded .superseded
  let f := withdrawCells s1 t.domain rs
  let s2 := setWaiters f.state (tmap (fun _ w => shrinkFence t.domain rs w) f.state.waiters)
  finish (judgeReports s2 f.reports fences) t .done

/-- The own part of a WITHDRAW (R139): one resource, or all for 0xFF. -/
def withdrawCommand (t : Ticket) (resource : Nat) (s : State) : State :=
  if resource = 0xFF then
    withdrawEffect s t (tkeys (cellsOf s t.domain)) (entriesWhere s fun w => w.domain == t.domain && isVoteOrList w)
  else match resourceAt s resource with
    | none => finish s t .badResource
    | some _ =>
      match cellAt s t.domain resource with
      | none => finish s t .done
      | some _ => withdrawEffect s t [resource] (supersededBy s t.domain [resource])

/-- WITHDRAW (R132, R139). -/
def execWithdraw (d : Domain) (tag : BitVec 16) (resource : Byte) (s : State) : Host.Outcome State Fault Refusal :=
  let t : Ticket := { domain := d, code := codeWithdraw, tag := tag }
  .next (handOver s t (withdrawCommand t resource.toNat))

/-! ## FENCE -/

/-- The own part of a FENCE (R143). -/
def fenceCommand (t : Ticket) (deadline : BitVec 16) (s : State) : State :=
  let set := tkeys (cellsOf s t.domain)
  let w : Waiter := { domain := t.domain, tag := t.tag, body := .fence set, deadline := deadlineTimer deadline }
  if s.fault.safe then finish s t .safe
  else if set.any (isLockedOut s) then finish s t .locked
  else if isDetached s t.domain then finish s t .detached
  else if waiterSatisfied s w then finish s t .satisfied
  else if entryFreeAfter s [] then createWaiter s w
  else finish s t .waitersFull

/-- FENCE (R132, R143). -/
def execFence (d : Domain) (tag deadline : BitVec 16) (s : State) : Host.Outcome State Fault Refusal :=
  let t : Ticket := { domain := d, code := codeFence, tag := tag }
  .next (handOver s t (fenceCommand t deadline))

end Sys2Proof.Machine
end

