-- ==== Sys2Proof/Machine/Intake.lean ====
section
/-! DEFINITION. The Queue Engine's happenings: NOTIFY writes, intake, fetches and write outcomes (chapter 9). -/

namespace Sys2Proof.Machine

/-! ## NOTIFY writes -/

/-- A NOTIFY write of kind SQ_TAIL or CQ_HEAD is taken: the run state is RUNNING and the queue is ENABLED (R168). -/
def notifyTaken (s : State) (d : Domain) : Bool := s.run.state == .running && (queueAt s d).state == .enabled

/-- A NOTIFY of kind SQ_TAIL (R168, R169). -/
def execSqTail (d : Domain) (index : Byte) (s : State) : Host.Outcome State Fault Refusal :=
  .next (if notifyTaken s d then
    match (queueAt s d).desc with
    | none => s
    | some desc =>
      if desc.sqSize ≤ index.toNat then haltQueue s d .badTail
      else setQueue s d { queueAt s d with sqTail := index.toNat }
  else s)

/-- A CQ_HEAD index is good: below the size, and reached from the old head at or before the tail (R170). EVENT_HEAD is judged in the same
way (R179). -/
def headGood (size tail head index : Nat) : Bool :=
  decide (index < size ∧ ringCount size index head ≤ ringCount size tail head)

/-- A NOTIFY of kind CQ_HEAD (R168, R170). -/
def execCqHead (d : Domain) (index : Byte) (s : State) : Host.Outcome State Fault Refusal :=
  .next (if notifyTaken s d then
    match (queueAt s d).desc with
    | none => s
    | some desc =>
      let q := queueAt s d
      if headGood desc.cqSize q.cqTail q.cqHead index.toNat then setQueue s d { q with cqHead := index.toNat, armed := true }
      else haltQueue s d .badHead
  else s)

/-- Disable the event ring (R180): its writes' outcomes count no longer. -/
def disableEvents (s : State) : State := killWrites (setEvents s { s.events with enabled := false }) .events

/-- A NOTIFY of kind EVENT_HEAD (R168, R179). -/
def execEventHead (index : Byte) (s : State) : Host.Outcome State Fault Refusal :=
  .next (if s.run.state = .running ∧ s.events.enabled = true then
    match s.events.desc with
    | none => s
    | some desc =>
      if headGood desc.size s.events.tail s.events.head index.toNat then
        setEvents s { s.events with head := index.toNat, armed := true }
      else disableEvents s
  else s)

/-! ## The intake arbiter -/

/-- A domain is eligible for intake (R171). -/
def intakeEligible (s : State) (d : Domain) : Bool :=
  let q := queueAt s d
  s.run.state == .running && q.state == .enabled && pendingCount q != 0 && hasRoom q q.reservations

/-- The domains after `d` in cyclic order, ending with `d` itself (R172). -/
def domainsAfter (d : Domain) : List Domain := [1, 2, 3, 4, 5, 6, 7, 8].map fun i => Fin.ofNat 8 (d.val + i)

/-- The domain that the arbiter grants, with its turn count (R172). -/
def chooseDomain (s : State) : Option (Domain × Nat) :=
  if intakeEligible s s.intake.current && decide (s.intake.turn < (domainAt s s.intake.current).weight) then
    some (s.intake.current, s.intake.turn + 1)
  else ((domainsAfter s.intake.current).find? (intakeEligible s)).map fun d => (d, 1)

/-- The fetch that a grant of domain `d` begins (R173): the record takes the domain and its SQ head index, and a 32-byte read of the
submission entry there is asked. A domain without a ring descriptor is never eligible. -/
def beginFetch (s : State) (d : Domain) : Option Fetch :=
  (queueAt s d).desc.map fun desc =>
    { domain := d, index := (queueAt s d).sqHead, addr := submissionAddress desc (queueAt s d).sqHead, void := false }

/-- An intake grant (R172, R173): taken when the fetch engine is idle and some domain is eligible. -/
def execIntakeGrant (s : State) : Host.Outcome State Fault Refusal :=
  .next (match s.intake.fetch, chooseDomain s with
    | none, some (d, turn) => setIntake s { current := d, turn := turn, fetch := beginFetch s d }
    | _, _ => s)

/-! ## Fetches -/

/-- The own part of the command that a submission entry carries (R193); a code that is none of the command codes completes BAD_COMMAND
(R132). -/
def entryCommand (t : Ticket) (h : EntryHeader) (e : BitVec 256) : State → State :=
  let p := fun k => byteOf e k
  if t.code = codeVote then voteCommand t h.await h.deadline (p 8) (p 9) (p 10)
  else if t.code = codeVoteList then voteListCommand t h.await h.deadline (p 8) (e.extractLsb' 72 144)
  else if t.code = codeWithdraw then withdrawCommand t (p 8)
  else if t.code = codePosture then postureCommand t (p 8)
  else if t.code = codeRenew then renewCommand t
  else if t.code = codeQuery then queryCommand t h.fresh h.deadline (p 8)
  else if t.code = codeFence then fenceCommand t h.deadline
  else if t.code = codeGrant then grantCommand t (p 8) (e.extractLsb' 128 64)
  else if t.code = codeRevoke then revokeCommand t (p 8)
  else if t.code = codeSetDomain then setDomainCommand t (p 8) (p 9) (p 10) (p 11)
  else if t.code = codeClearFault then clearFaultCommand t h.deadline (p 8)
  else if t.code = codeClearSafe then clearSafeCommand t
  else if t.code = codeReleaseHold then releaseHoldCommand t (p 8)
  else if t.code = codeConfigResource then configCommand t (p 8) (e.getLsbD 72) (e.extractLsb' 128 128)
  else fun s => finish s t .badCommand

/-- The fetch engine becomes idle (R173). -/
def idleFetch (s : State) : State := setIntake s { s.intake with fetch := none }

/-- The SQ head of a domain advances by 1 (R173). -/
def advanceHead (s : State) (d : Domain) : State :=
  let q := queueAt s d
  match q.desc with
  | none => s
  | some desc => setQueue s d { q with sqHead := nextIndex desc.sqSize q.sqHead }

/-- The read of the submission entry returns data (R173): the head advances and the Command Unit takes the command in the same happening;
data of a void fetch are discarded. With no fetch in flight there is no read to return (entry 3). -/
def execFetchData (data : BitVec 256) (s : State) : Host.Outcome State Fault Refusal :=
  .next (match s.intake.fetch with
    | none => s
    | some f =>
      if f.void then idleFetch s
      else
        let h := entryHeader data
        let t : Ticket := { domain := f.domain, code := h.code, tag := h.tag }
        takeCommand (advanceHead (idleFetch s) f.domain) t (entryCommand t h data))

/-- The read of the submission entry returns a bus error (R173): the queue halts; one of a void fetch halts nothing. -/
def execFetchBusError (s : State) : Host.Outcome State Fault Refusal :=
  .next (match s.intake.fetch with
    | none => s
    | some f => if f.void then idleFetch s else haltQueue (idleFetch s) f.domain .busError)

/-! ## Write outcomes -/

/-- Outstanding write `k` is outstanding no more. -/
def dropWrite (s : State) (k : Nat) : State := setHost s { s.host with writes := s.host.writes.eraseIdx k }

/-- The outcome of a completion record write or a message write of a domain (R175). A write of the event ring has no outcome of this
kind. -/
def execQueueWriteOutcome (write : Nat) (busError : Bool) (s : State) : Host.Outcome State Fault Refusal :=
  .next (match s.host.writes[write]? with
    | none => s
    | some w =>
      match w.owner with
      | .queue d => if busError && w.live then haltQueue (dropWrite s write) d .busError else dropWrite s write
      | .events => s)

/-- The outcome of an event record write or an event message write (R180). A write of a domain's queue has no outcome of this kind. -/
def execEventWriteOutcome (write : Nat) (busError : Bool) (s : State) : Host.Outcome State Fault Refusal :=
  .next (match s.host.writes[write]? with
    | none => s
    | some w =>
      match w.owner with
      | .events => if busError && w.live then disableEvents (dropWrite s write) else dropWrite s write
      | .queue _ => s)

end Sys2Proof.Machine
end

