-- ==== Sys2Proof/Machine/RailLink.lean ====
section
/-! DEFINITION. The Link Controller's happenings: LINK_GRANT, ANSWER, RESPONSE_TIMEOUT, the notices and the poll period. -/

namespace Sys2Proof.Machine

/-- A grant of the link (R101): with the link BUSY or no request held it is not taken. -/
def execLinkGrant (s : State) : Host.Outcome State Fault Refusal := .next (grantLink s)

/-- An answer frame (R99): judged against the transaction in flight; discarded while the link is IDLE. -/
def execAnswer (frame : List Byte) (s : State) : Host.Outcome State Fault Refusal :=
  .next (match s.link.transaction with
    | none => s
    | some t => endTransaction s t (judgeAnswer t frame))

/-- The response timer expires: the transaction ends with the outcome timeout (R99). -/
def execResponseTimeout (s : State) : Host.Outcome State Fault Refusal :=
  .next (match s.link.transaction with
    | none => s
    | some t => endTransaction s t .timeout)

/-- A notice frame begins to arrive (R103); the return path carries one frame at a time. -/
def execNoticeFrameStart (s : State) : Host.Outcome State Fault Refusal :=
  .next (match s.link.receiving with
    | some _ => s
    | none => setLink s { s.link with receiving := some (creditOpen s.link) })

/-- The end of a notice frame that began with the credit as `credit` says (R104); the frame is no longer in reception. -/
def takeArrival (s : State) (credit : Bool) (frame : List Byte) : State :=
  if s.run.state = .stopped ∨ s.run.state = .loading then s
  else match noticeOf frame with
    | none => handEvent s (strayEvent .badFrame none)
    | some n =>
      if credit then setLink s { s.link with notices := s.link.notices ++ [n] }
      else handEvent s (strayEvent .noCredit (some (n.endpoint, n.channel)))

/-- A notice frame ends (R104). A frame whose start was not seen counts as begun at this moment (entry 6). -/
def execNoticeArrival (frame : List Byte) (s : State) : Host.Outcome State Fault Refusal :=
  .next (takeArrival (setLink s { s.link with receiving := none }) (s.link.receiving.getD (creditOpen s.link)) frame)

/-- The notice at the head of the FIFO is taken and routed (R105); with an empty FIFO nothing is taken. -/
def execNoticeTake (s : State) : Host.Outcome State Fault Refusal :=
  .next (match s.link.notices with
    | [] => s
    | n :: rest => routeNotice (setLink s { s.link with notices := rest }) n)

/-- The poll period timer expires (R106): it starts again, and a POLL request is placed unless a poll is pending. A timer that does not
run has no expiry (entry 3). -/
def execPollPeriodExpiry (s : State) : Host.Outcome State Fault Refusal :=
  .next (match s.link.pollTimer with
    | none => s
    | some _ =>
      let s1 := setLink s { s.link with pollTimer := fullPeriod s.link.pollPeriod }
      if s.link.pollPending then s1
      else placeRequest (setLink s1 { s1.link with pollPending := true }) .poller s.link.cursor)

end Sys2Proof.Machine
end

