-- ==== Sys2Proof/Machine/RunControl.lean ====
section
/-! DEFINITION. Run Control: CONTROL writes, loading, the run states and the resets (chapter 10). -/

namespace Sys2Proof.Machine

/-! ## Failing and abandoning a load -/

/-- A load fails with a code: STOPPED, and the Link Controller's values of R113; no table changes (R185). -/
def failLoad (s : State) (code : LoadError) : State :=
  let s1 := failedLoadLink s
  setRun s1 { s1.run with state := .stopped, loadError := code }

/-- The outstanding load reads no longer count (R185). -/
def killLoadReads (s : State) : State :=
  setHost s { s.host with loadReads := s.host.loadReads.map fun x => { x with live := false } }

/-- RUN 0 in LOADING abandons the load: STOPPED with code NONE, and its read outcome is discarded when it returns (R185). -/
def abandonLoad (s : State) : State := failLoad (killLoadReads s) .none

/-- Ask the Host Port for a load read (R185). -/
def askLoadRead (s : State) (part : LoadPart) (addr : BitVec 64) : State :=
  setHost s { s.host with loadReads := s.host.loadReads ++ [{ part := part, addr := addr, live := true }] }

/-- A fetch in flight becomes void, whatever its domain (R173, R185). -/
def voidAnyFetch (s : State) : State :=
  setIntake s { s.intake with fetch := s.intake.fetch.map fun f => { f with void := true } }

/-- RUN 1 in STOPPED (R185): the load error code and the run time are cleared, a fetch in flight is void and outcomes of writes count no
longer (R175, R180, R181), and the header read is asked, unless the block would extend past the top of the address space. -/
def enterLoading (s : State) : State :=
  let s1 := voidAnyFetch (killAllWrites s)
  let s2 := setRun s1 { s1.run with state := .loading, loadError := .none, runTime := 0, subTick := 0 }
  if 2 ^ 64 < s.run.cbAddr.toNat + Config.controlBlockBytes then failLoad s2 .bus
  else askLoadRead s2 .header s.run.cbAddr

/-! ## Stopping -/

/-- Remove every clear record: each CLEARING resource returns to LOCKED, its request is removed and its CLEAR on the link runs to no
requester (R93, R189). -/
def removeClears (s : State) : State :=
  let s1 := (tkeys s.fault.clears).foldl (fun t r => releaseRequester t (.clear r)) s
  let s2 := setResources s1 (tmap (fun _ x => if x.cond = .clearing then { x with cond := .locked } else x) s1.resources)
  setFault s2 { s2.fault with clears := [] }

/-- The resources that owe alignment. -/
def owingSlots (s : State) : List Nat := (s.resources.filter fun e => e.2.alignOwed).map Prod.fst

/-- Entry to STOPPING (R189): the run state and the releases of alignment, the withdrawals of R67 and R66, the clear records, the STOPPED
completions, and the reports. -/
def enterStopping (s : State) : State :=
  let owing := owingSlots s
  let s1 := releaseAlignment (setRun s { s.run with state := .stopping }) owing
  let withdrawn := (barredSteps s1).map fun e => e.2.resource
  let s2 := withdrawBarredSteps s1
  let f := followTargets s (removeClears s2) (owing ++ withdrawn)
  judgeReports (completeWhere f.state (fun _ => true) .stopped) f.reports []

/-! ## CONTROL writes -/

/-- The RUN bit of a CONTROL write, by run state (R183, item 3). -/
def actOnRun (s : State) (run : Bool) : State :=
  match s.run.state, run with
  | .stopped, true => enterLoading s
  | .loading, false => abandonLoad s
  | .aligning, false => enterStopping s
  | .running, false => enterStopping s
  | .stopped, false => s
  | .loading, true => s
  | .aligning, true => s
  | .running, true => s
  | .stopping, _ => s

/-- An accepted soft reset (R191): every block at its hardware reset values, the control block address kept. The queue of happenings is
no block of the part and stays (entry 16). -/
def softResetAll (s : State) : State :=
  { State.reset with run := { resetRun with cbAddr := s.run.cbAddr }, pending := s.pending }

/-- A CONTROL write (R183): the reset-refused flag clears, then SOFT_RESET, then RUN. -/
def controlWrite (s : State) (softReset run : Bool) : State :=
  let s1 := setRun s { s.run with resetRefused := false }
  if softReset then
    if s.run.state = .stopped then softResetAll s1
    else actOnRun (setRun s1 { s1.run with resetRefused := true }) run
  else actOnRun s1 run

/-- A CONTROL write with RUN 1 and SOFT_RESET 0 (R183, R185). -/
def execRunSet (s : State) : Host.Outcome State Fault Refusal := .next (controlWrite s false true)

/-- A CONTROL write with RUN 0 and SOFT_RESET 0 (R183, R185, R189). -/
def execRunClear (s : State) : Host.Outcome State Fault Refusal := .next (controlWrite s false false)

/-- A CONTROL write with SOFT_RESET 1 (R183, R191). -/
def execSoftReset (run : Bool) (s : State) : Host.Outcome State Fault Refusal := .next (controlWrite s true run)

/-- The reset pin (R191). The queue of happenings is no block of the part and stays (entry 16). -/
def execHardwareReset (s : State) : Host.Outcome State Fault Refusal := .next { State.reset with pending := s.pending }

/-! ## The other registers -/

/-- A write to CB_ADDRESS_LOW: taken in STOPPED, its two lowest bits not kept (R184). -/
def execCbAddressLow (value : BitVec 32) (s : State) : Host.Outcome State Fault Refusal :=
  .next (if s.run.state = .stopped then
    setRun s { s.run with cbAddr := s.run.cbAddr.extractLsb' 32 32 ++ (value &&& 0xFFFFFFFC#32) }
  else s)

/-- A write to CB_ADDRESS_HIGH: taken in STOPPED (R184). -/
def execCbAddressHigh (value : BitVec 32) (s : State) : Host.Outcome State Fault Refusal :=
  .next (if s.run.state = .stopped then setRun s { s.run with cbAddr := value ++ s.run.cbAddr.extractLsb' 0 32 } else s)

/-- A register write that is ignored: it leaves no trace (R168, R196). -/
def execRegisterWriteIgnored (_offset _value : BitVec 32) (s : State) : Host.Outcome State Fault Refusal := .next s

/-! ## Load outcomes -/

/-- The outcome of outstanding load read `k`, if it is a read of `part`: the read is outstanding no more, and `taken` acts if its load
stands; the outcome of an abandoned load is discarded (R185). -/
def loadOutcome (s : State) (k : Nat) (isPart : LoadPart → Bool) (taken : State → State) : State :=
  match s.host.loadReads[k]? with
  | none => s
  | some x =>
    if isPart x.part then
      let s1 := setHost s { s.host with loadReads := s.host.loadReads.eraseIdx k }
      if x.live then taken s1 else s1
    else s

/-- The header returns (R185): SIGNATURE and VERSION are checked, and the read of the remaining 1,540 bytes is asked. -/
def takeHeader (header : BitVec 256) (s : State) : State :=
  match headerError header with
  | some code => failLoad s code
  | none => askLoadRead (setRun s { s.run with loadHeader := header }) .body (s.run.cbAddr + 32)

/-- The rest of the block returns (R185, R187): the load fails with the first code found, or succeeds. -/
def takeBody (body : BitVec 12320) (s : State) : State :=
  match bodyError s.run.loadHeader body with
  | some code => failLoad s code
  | none => loadTables s s.run.loadHeader body

/-- The header read returns data (R185). -/
def execLoadHeaderData (read : Nat) (data : BitVec 256) (s : State) : Host.Outcome State Fault Refusal :=
  .next (loadOutcome s read (· == .header) (takeHeader data))

/-- The read of the rest of the block returns data (R185, R187). -/
def execLoadBodyData (read : Nat) (data : BitVec 12320) (s : State) : Host.Outcome State Fault Refusal :=
  .next (loadOutcome s read (· == .body) (takeBody data))

/-- A control block read returns a bus error: the load fails with code BUS (R185). -/
def execLoadBusError (read : Nat) (s : State) : Host.Outcome State Fault Refusal :=
  .next (loadOutcome s read (fun _ => true) fun t => failLoad t .bus)

/-! ## The ends of alignment and of stopping -/

/-- ALIGNING may end: no present resource owes alignment and the Cut List is empty (R188). -/
def alignmentDone (s : State) : Bool := s.resources.all (fun e => !e.2.alignOwed) && s.fault.cutList.isEmpty

/-- The move from ALIGNING to RUNNING (R188). -/
def execEndOfAlignment (s : State) : Host.Outcome State Fault Refusal :=
  .next (if s.run.state = .aligning ∧ alignmentDone s = true then
    handEvent (setRun s { s.run with state := .running }) (plainEvent .alignDone 0xFF 0)
  else s)

/-- The move from STOPPING to STOPPED (R190): STOP_DONE is handed, and the poller stops and the Notice FIFO is emptied. -/
def execEndOfStopping (s : State) : Host.Outcome State Fault Refusal :=
  .next (if s.run.state = .stopping ∧ atRest s = true then
    let s1 := handEvent s (plainEvent .stopDone 0xFF 0)
    stopLink (setRun s1 { s1.run with state := .stopped })
  else s)

end Sys2Proof.Machine
end

