-- ==== Sys2Proof/Machine/SequencerEvents.lean ====
section
/-! DEFINITION. The Sequencer's own happenings: ALLOCATION, SETTLE_TIMEOUT and HOLD_EXPIRY. -/

namespace Sys2Proof.Machine

/-- An allocation (R56): with no FREE slot or no eligible move it is not taken and nothing changes. -/
def execAllocation (s : State) : Host.Outcome State Fault Refusal := .next (allocate s)

/-- The settle timer of a step in SETTLING expires: the step fails with NO_SETTLE (R61). A slot without a running settle timer has no
expiry (entry 3). -/
def execSettleTimeout (slot : Nat) (s : State) : Host.Outcome State Fault Refusal :=
  .next (match stepAt s slot with
    | none => s
    | some st =>
      match st.state with
      | .settling _ => stepFails s slot st .noSettle 0
      | .awaitingLink | .issued | .holding _ => s)

/-- The hold timer of a step in HOLDING expires: the step ends (R64). A slot without a running hold timer has no expiry (entry 3). -/
def execHoldExpiry (slot : Nat) (s : State) : Host.Outcome State Fault Refusal :=
  .next (match stepAt s slot with
    | none => s
    | some st =>
      match st.state with
      | .holding _ => endStep s slot st
      | .awaitingLink | .issued | .settling _ => s)

end Sys2Proof.Machine
end

