-- ==== Sys2Proof/Machine/Timers.lean ====
section
/-! DEFINITION. The expiries of leases and deadlines, and the passing of time. -/

namespace Sys2Proof.Machine

/-- The lease of a domain runs (R120). -/
def leaseRuns (s : State) (x : DomainRec) : Bool :=
  x.enabled && (x.posture == some .active || x.posture == some .drowsy) && x.leasePeriod != 0 && x.lease.isSome
    && s.run.state == .running

/-- The expiry of a domain's lease (R122): the domain becomes DETACHED with the effects of R117, LEASE_LOST is handed, and the reports
are judged. -/
def expireLease (s : State) (d : Domain) (p : Posture) : State :=
  let f := changePosture s d .detached
  judgeReports (handEvent f.state (plainEvent .leaseLost d.val (postureCode p))) f.reports []

/-- The lease of a domain runs and has reached 0 (R120): it expires. A lease that a command has just restarted has time left and does not
(R122). -/
def leaseDue (s : State) (x : DomainRec) : Bool := leaseRuns s x && x.lease == some 0

/-- A domain's running lease reaches 0 (R122). A lease that does not run or has time left has no expiry (entry 3). -/
def execLeaseExpiry (d : Domain) (s : State) : Host.Outcome State Fault Refusal :=
  .next (if leaseDue s (domainAt s d) then
    match (domainAt s d).posture with
    | some p => expireLease s d p
    | none => s
  else s)

/-- The deadline timer of a waiter expires: it completes TIMED_OUT (R157). A waiter without a deadline has no expiry (entry 3). -/
def execDeadlineExpiry (entry : Nat) (s : State) : Host.Outcome State Fault Refusal :=
  .next (match tget s.waiters entry with
    | none => s
    | some w =>
      match w.deadline with
      | none => s
      | some _ => completeWaiter s entry .timedOut)

/-! ## The passing of time -/

/-- One unit off a timer; it stands at 0 until its expiry is taken. -/
def countDown (timer : Option Nat) : Option Nat := timer.map (· - 1)

/-- One unit off the timer of a step (R49). -/
def tickStep (st : Step) : Step :=
  match st.state with
  | .settling n => { st with state := .settling (n - 1) }
  | .holding n => { st with state := .holding (n - 1) }
  | .awaitingLink | .issued => st

/-- The run time, which holds its value in STOPPED (R182). -/
def tickRun (x : RunControl) : RunControl :=
  if x.state = .stopped then x
  else if x.subTick + 1 < Config.unitsPerMs then { x with subTick := x.subTick + 1 }
  else { x with subTick := 0, runTime := x.runTime + 1 }

/-- One unit off the response timer (R95). -/
def tickTransaction (t : Transaction) : Transaction := { t with timer := t.timer - 1 }

/-- 10 µs pass: every running timer counts down and the run time advances (R49, R95, R106, R120, R157, R182; DESIGN CHOICE, entry 1). -/
def passTime (s : State) : State :=
  { s with
    run := tickRun s.run
    domains := perDomain fun d =>
      let x := domainAt s d
      if leaseRuns s x then { x with lease := countDown x.lease } else x
    steps := tmap (fun _ st => tickStep st) s.steps
    waiters := tmap (fun _ w => { w with deadline := countDown w.deadline }) s.waiters
    link := { s.link with transaction := s.link.transaction.map tickTransaction, pollTimer := countDown s.link.pollTimer } }

end Sys2Proof.Machine
end

