-- ==== Sys2Proof/Machine/Dispatch.lean ====
section
/-! DEFINITION. The meaning of each happening: one arm per row of the opcode table. -/

namespace Sys2Proof.Machine

/-- The effect of a happening on everything but the queue of happenings. -/
def exec (i : Instr) (s : State) : Host.Outcome State Fault Refusal :=
  match i with
  | .vote d tag await deadline resource level setpoint => Sys2Proof.Machine.execVote d tag await deadline resource level setpoint s
  | .voteList d tag await deadline count entries => Sys2Proof.Machine.execVoteList d tag await deadline count entries s
  | .withdraw d tag resource => Sys2Proof.Machine.execWithdraw d tag resource s
  | .posture d tag code => Sys2Proof.Machine.execPosture d tag code s
  | .renew d tag => Sys2Proof.Machine.execRenew d tag s
  | .query d tag fresh deadline resource => Sys2Proof.Machine.execQuery d tag fresh deadline resource s
  | .fence d tag deadline => Sys2Proof.Machine.execFence d tag deadline s
  | .grant d tag entry record => Sys2Proof.Machine.execGrant d tag entry record s
  | .revoke d tag entry => Sys2Proof.Machine.execRevoke d tag entry s
  | .setDomain d tag target weight leasePeriod enable => Sys2Proof.Machine.execSetDomain d tag target weight leasePeriod enable s
  | .clearFault d tag deadline resource => Sys2Proof.Machine.execClearFault d tag deadline resource s
  | .clearSafe d tag => Sys2Proof.Machine.execClearSafe d tag s
  | .releaseHold d tag resource => Sys2Proof.Machine.execReleaseHold d tag resource s
  | .configResource d tag slot carried record => Sys2Proof.Machine.execConfigResource d tag slot carried record s
  | .sqTail d index => Sys2Proof.Machine.execSqTail d index s
  | .cqHead d index => Sys2Proof.Machine.execCqHead d index s
  | .eventHead index => Sys2Proof.Machine.execEventHead index s
  | .cbAddressLow value => Sys2Proof.Machine.execCbAddressLow value s
  | .cbAddressHigh value => Sys2Proof.Machine.execCbAddressHigh value s
  | .runSet => Sys2Proof.Machine.execRunSet s
  | .runClear => Sys2Proof.Machine.execRunClear s
  | .softReset run => Sys2Proof.Machine.execSoftReset run s
  | .registerWriteIgnored offset value => Sys2Proof.Machine.execRegisterWriteIgnored offset value s
  | .hardwareReset => Sys2Proof.Machine.execHardwareReset s
  | .loadHeaderData read data => Sys2Proof.Machine.execLoadHeaderData read data s
  | .loadBodyData read data => Sys2Proof.Machine.execLoadBodyData read data s
  | .loadBusError read => Sys2Proof.Machine.execLoadBusError read s
  | .endOfAlignment => Sys2Proof.Machine.execEndOfAlignment s
  | .endOfStopping => Sys2Proof.Machine.execEndOfStopping s
  | .allocation => Sys2Proof.Machine.execAllocation s
  | .linkGrant => Sys2Proof.Machine.execLinkGrant s
  | .answer frame => Sys2Proof.Machine.execAnswer frame s
  | .responseTimeout => Sys2Proof.Machine.execResponseTimeout s
  | .settleTimeout slot => Sys2Proof.Machine.execSettleTimeout slot s
  | .holdExpiry slot => Sys2Proof.Machine.execHoldExpiry slot s
  | .noticeFrameStart => Sys2Proof.Machine.execNoticeFrameStart s
  | .noticeArrival frame => Sys2Proof.Machine.execNoticeArrival frame s
  | .noticeTake => Sys2Proof.Machine.execNoticeTake s
  | .pollPeriodExpiry => Sys2Proof.Machine.execPollPeriodExpiry s
  | .leaseExpiry d => Sys2Proof.Machine.execLeaseExpiry d s
  | .deadlineExpiry entry => Sys2Proof.Machine.execDeadlineExpiry entry s
  | .intakeGrant => Sys2Proof.Machine.execIntakeGrant s
  | .fetchData data => Sys2Proof.Machine.execFetchData data s
  | .fetchBusError => Sys2Proof.Machine.execFetchBusError s
  | .queueWriteOutcome write busError => Sys2Proof.Machine.execQueueWriteOutcome write busError s
  | .eventWriteOutcome write busError => Sys2Proof.Machine.execEventWriteOutcome write busError s

end Sys2Proof.Machine
end

