-- ==== Sys2Proof/Machine/Step.lean ====
section
/-! DEFINITION. One step of the part: the happening at the front of the queue is taken, or, with none waiting, 10 µs pass. -/

namespace Sys2Proof.Machine

/-- One step. The happening at the front of the queue is taken with the queue's rest; on an empty queue 10 µs pass (DESIGN CHOICE,
entry 1). -/
def step (s : State) : Host.Outcome State Fault Refusal :=
  match s.pending with
  | [] => .next (passTime s)
  | c :: rest => exec c (setPending s rest)

/-- The state with the command that a word spells at the front of its queue; unchanged where the word spells none (entry 17). -/
def State.withFetchWord (s : State) (nbits w : Nat) : State :=
  match Sys2Proof.decodeTableWord nbits w with
  | some c => setPending s (c :: s.pending)
  | none => s

end Sys2Proof.Machine
end

