-- ==== Sys2Proof/Safety.lean ====
section
/-! DEFINITION. The terms in which claims about the part are stated: when a command is taken, what a posted record is, what a happening
leaves as it was, and the laws that every step keeps. -/

namespace Sys2Proof.Machine

/-! ## Commands taken and records posted -/

/-- The run state is RUNNING and the Queue Engine can hand over a command of `d`, so the Command Unit takes it past the run state
check of R132. -/
def Taking (s : State) (d : Domain) : Prop := s.run.state = .running ∧ canHandOver s d = true

/-- The 16-byte records among the outstanding writes of an owner, oldest first: its message writes have 4 bytes (R174, R178). -/
def recordsOf (s : State) (o : WriteOwner) : List (List Byte) :=
  (s.host.writes.filter fun w => decide (w.owner = o) && w.data.length == 16).map HostWrite.data

/-- The youngest record asked for an owner. -/
def lastRecord (s : State) (o : WriteOwner) : Option (List Byte) := (recordsOf s o).getLast?

/-- The youngest completion record asked for its domain is this completion, with some phase (R174). -/
def PostedLast (s : State) (c : Completion) : Prop :=
  ∃ phase, lastRecord s (.queue c.domain) = some (completionRecord c phase)

/-- A completion was posted in a happening: the records newly asked for its domain hold it, with some phase (R174). -/
def Posted (s t : State) (c : Completion) : Prop :=
  ∃ new phase, recordsOf t (.queue c.domain) = recordsOf s (.queue c.domain) ++ new ∧ completionRecord c phase ∈ new

/-- One event was handed, and no other: the event ring and the event records asked are those after handing it (R178). -/
def EventHanded (s t : State) (e : Event) : Prop :=
  t.events = (handEvent s e).events ∧ recordsOf t .events = recordsOf (handEvent s e) .events

/-- The completion of a command with no index and no result (11.2). -/
def plainCompletion (d : Domain) (code : Nat) (tag : BitVec 16) (status : Status) : Completion :=
  { domain := d, code := code, tag := tag, status := status, payload := indexPayload none }

/-- The ticket of a command row: its domain, code and tag (R131). -/
def ticketOf : Instr → Option Ticket
  | .vote d tag _ _ _ _ _ => some { domain := d, code := codeVote, tag := tag }
  | .voteList d tag _ _ _ _ => some { domain := d, code := codeVoteList, tag := tag }
  | .withdraw d tag _ => some { domain := d, code := codeWithdraw, tag := tag }
  | .posture d tag _ => some { domain := d, code := codePosture, tag := tag }
  | .renew d tag => some { domain := d, code := codeRenew, tag := tag }
  | .query d tag _ _ _ => some { domain := d, code := codeQuery, tag := tag }
  | .fence d tag _ => some { domain := d, code := codeFence, tag := tag }
  | .grant d tag _ _ => some { domain := d, code := codeGrant, tag := tag }
  | .revoke d tag _ => some { domain := d, code := codeRevoke, tag := tag }
  | .setDomain d tag _ _ _ _ => some { domain := d, code := codeSetDomain, tag := tag }
  | .clearFault d tag _ _ => some { domain := d, code := codeClearFault, tag := tag }
  | .clearSafe d tag => some { domain := d, code := codeClearSafe, tag := tag }
  | .releaseHold d tag _ => some { domain := d, code := codeReleaseHold, tag := tag }
  | .configResource d tag _ _ _ => some { domain := d, code := codeConfigResource, tag := tag }
  | .sqTail _ _ | .cqHead _ _ | .eventHead _ | .cbAddressLow _ | .cbAddressHigh _ | .runSet | .runClear | .softReset _
  | .registerWriteIgnored _ _ | .hardwareReset | .loadHeaderData _ _ | .loadBodyData _ _ | .loadBusError _ | .endOfAlignment
  | .endOfStopping | .allocation | .linkGrant | .answer _ | .responseTimeout | .settleTimeout _ | .holdExpiry _
  | .noticeFrameStart | .noticeArrival _ | .noticeTake | .pollPeriodExpiry | .leaseExpiry _ | .deadlineExpiry _ | .intakeGrant
  | .fetchData _ | .fetchBusError | .queueWriteOutcome _ _ | .eventWriteOutcome _ _ => none

/-! ## What a happening leaves as it was -/

/-- A resource record without its condition. -/
def withoutCond (x : Resource) : Resource := { x with cond := .steady }

/-- No resource record changes but for its condition (R30, R46). -/
def OnlyConditionsChange (s t : State) : Prop :=
  ∀ r, (resourceAt t r).map withoutCond = (resourceAt s r).map withoutCond

/-- Every resource record but one is unchanged. -/
def OtherResourcesKept (s t : State) (r : Nat) : Prop := ∀ k, k ≠ r → resourceAt t k = resourceAt s k

/-- Every vote cell is unchanged but for the cells of domain `d` on the resources of `rs`. -/
def OtherCellsKept (s t : State) (d : Domain) (rs : List Nat) : Prop :=
  ∀ d' r, (d' ≠ d ∨ r ∉ rs) → cellAt t d' r = cellAt s d' r

/-- What no command of a domain touches but an administrative one: Run Control, hold cells, grants, the Fault Unit, the fetch engine and
the event ring, and the queue of happenings. -/
def DomainFrame (s t : State) : Prop :=
  t.run = s.run ∧ t.holds = s.holds ∧ t.grants = s.grants ∧ t.fault = s.fault ∧ t.intake = s.intake ∧ t.events = s.events
    ∧ t.pending = s.pending

/-- Every table stands but the Domain Table, the queues and the Host Port. -/
def TablesStand (s t : State) : Prop :=
  t.run = s.run ∧ t.resources = s.resources ∧ t.votes = s.votes ∧ t.holds = s.holds ∧ t.grants = s.grants ∧ t.steps = s.steps
    ∧ t.link = s.link ∧ t.fault = s.fault ∧ t.waiters = s.waiters ∧ t.intake = s.intake ∧ t.events = s.events
    ∧ t.pending = s.pending

/-- What a command of domain `d` that completes at a check touches: the Host Port and the queue that its completion is posted to, and the
domain's lease, which restarts (R121, R132); every other table and queue stands. -/
def TablesKept (s t : State) (d : Domain) : Prop :=
  TablesStand s t ∧ t.domains = (restartLease s d).domains ∧ ∀ e, e ≠ d → queueAt t e = queueAt s e

/-! ## How waiters end -/

/-- A waiter ended with a status: its completion, which carries its tag and its command's code and no result, was posted, if its domain's
queue is ENABLED (R151, R174). -/
def EndedWith (s t : State) (w : Waiter) (status : Status) : Prop :=
  (queueAt s w.domain).state = .enabled → (queueAt s w.domain).desc.isSome = true →
    Posted s t (plainCompletion w.domain (waiterCode w.body) w.tag status)

/-- The report of resource `r` was judged (R153 to R155): the waiters that cover it and are satisfied completed SATISFIED, and every other
waiter stands. -/
def Reported (s t : State) (r : Nat) : Prop :=
  ∀ k w, tget s.waiters k = some w →
    if covers w r = true ∧ waiterSatisfied t w = true then tget t.waiters k = none ∧ EndedWith s t w .satisfied
    else tget t.waiters k = some w

/-! ## What the entries to SAFE and STOPPING record -/

/-- A step that SAFE and STOPPING bar: in AWAITING_LINK, a RAISE or an upward SETPOINT (R67). -/
def isBarred (st : Step) : Bool := isAwaiting st && risesTowards st

/-- The record of a resource whose step R67 withdraws: the to values of a NORMAL step that retried are recorded, of no other. -/
def withdrawnRecord (st : Step) (x : Resource) : Resource :=
  if st.purpose = .normal ∧ 1 ≤ st.retries then { x with level := st.goal.level, setpoint := st.goal.setpoint } else x

/-- A resource that a lock of an ancestor takes to OFF (R79). -/
def collapses (x : Resource) : Prop := x.cond = .steady ∨ x.cond = .waiting ∨ x.cond = .stepping

/-- A waiter was created in the lowest FREE entry, with one more reservation of its domain (R152). -/
def WaiterCreated (s t : State) (w : Waiter) : Prop :=
  ∃ k, k < Config.waiterEntries ∧ tget s.waiters k = none ∧ (∀ j, j < k → (tget s.waiters j).isSome = true)
    ∧ t.waiters = tset s.waiters k w ∧ (queueAt t w.domain).reservations = (queueAt s w.domain).reservations + 1

/-- What a GRANT or REVOKE of an entry does to the cells and waiters of the domain that the entry named before (R125): a cell that the new
table does not allow is withdrawn, and the VOTE, LIST and FENCE waiters that cover a lost cell end with REVOKED. -/
def CellsJudgedByGrants (s t : State) (entry : Nat) : Prop :=
  (∀ d r, cellAt t d r = if (tget s.grants entry).map Grant.domain = some d.val
      then (cellAt s d r).filter fun c => voteAllowed t.grants d r c else cellAt s d r)
  ∧ (∀ k w r, tget t.waiters k = some w → isVoteOrList w = true ∨ isFence w = true → (cellAt s w.domain r).isSome = true →
      cellAt t w.domain r = none → covers w r = false)
  ∧ ∀ k w r, tget s.waiters k = some w → isVoteOrList w = true ∨ isFence w = true → (cellAt s w.domain r).isSome = true →
      cellAt t w.domain r = none → covers w r = true → EndedWith s t w .revoked

/-- The row that a submission entry of a domain spells (11.2); none for a code that is no command code. -/
def entryRow (d : Domain) (e : BitVec 256) : Option Instr :=
  let tag := e.extractLsb' 16 16
  let deadline := e.extractLsb' 32 16
  let p := entryByte e
  match byteOf e 0 with
  | 0x01 => some (.vote d tag (e.getLsbD 8) deadline (p 8) (p 9) (p 10))
  | 0x02 => some (.voteList d tag (e.getLsbD 8) deadline (p 8) (e.extractLsb' 72 144))
  | 0x03 => some (.withdraw d tag (p 8))
  | 0x04 => some (.posture d tag (p 8))
  | 0x05 => some (.renew d tag)
  | 0x06 => some (.query d tag (e.getLsbD 9) deadline (p 8))
  | 0x07 => some (.fence d tag deadline)
  | 0x10 => some (.grant d tag (p 8) (e.extractLsb' 128 64))
  | 0x11 => some (.revoke d tag (p 8))
  | 0x12 => some (.setDomain d tag (p 8) (p 9) (p 10) (p 11))
  | 0x13 => some (.clearFault d tag deadline (p 8))
  | 0x14 => some (.clearSafe d tag)
  | 0x15 => some (.releaseHold d tag (p 8))
  | 0x16 => some (.configResource d tag (p 8) (e.getLsbD 72) (e.extractLsb' 128 128))
  | _ => none

/-- Everything but the Link Controller is unchanged. -/
def OnlyLinkChanges (s t : State) : Prop := t = setLink s t.link

/-- The order of the link classes: a lower number is granted first (R101). -/
def classRank : LinkClass → Nat
  | .urgent => 1
  | .step => 2
  | .clear => 3
  | .sample => 4
  | .poll => 5

/-! ## The laws -/

/-- The Notice FIFO never holds more than 16 notices, the one in reception with credit counted (R95, R103). -/
def NoticeLaw (s : State) : Prop :=
  s.link.notices.length + (if s.link.receiving = some true then 1 else 0) ≤ Config.noticeCapacity

/-- A vote cell of a domain other than D0 is present only when the grants allow it (R124). -/
def GrantLaw (s : State) : Prop :=
  tsorted s.grants = true ∧ ∀ d : Domain, d ≠ 0 → ∀ e ∈ cellsOf s d, voteAllowed s.grants d e.1 e.2 = true

/-- A table in canonical form with every number below a bound. -/
def TableWithin {α : Type} (t : Table α) (bound : Nat) : Prop := tsorted t = true ∧ ∀ e ∈ t, e.1 < bound

/-- Every table keeps its canonical form and its capacity (00_scope, CAPACITIES; R1, R25, R48, R123, R151). -/
structure TableLaw (s : State) : Prop where
  resources : TableWithin s.resources Config.resourceSlots
  votes     : ∀ d : Domain, TableWithin (cellsOf s d) Config.resourceSlots
  holds     : TableWithin s.holds Config.resourceSlots
  grants    : TableWithin s.grants Config.grantEntries
  steps     : TableWithin s.steps Config.stepSlots
  clears    : TableWithin s.fault.clears Config.resourceSlots
  waiters   : TableWithin s.waiters Config.waiterEntries

/-- The waiters of a domain, counted. -/
def waiterCount (s : State) (d : Domain) : Nat := (s.waiters.filter fun e => e.2.domain == d).length

/-- The run states in which no command can be handed over: every fetch is void (R173, R181). -/
def loadingOrAligning (s : State) : Prop := s.run.state = .loading ∨ s.run.state = .aligning

/-- The completion ring never overfills: the reservations held are those of the domain's waiters, and the written completions, the
reservations and the fetch reservation stay at or below the CQ size minus 1 (R171), with what keeps that so. -/
structure RingLaw (s : State) : Prop where
  /-- Waiter entries are in canonical form. -/
  sorted   : tsorted s.waiters = true
  /-- The reservations held equal the number of waiters (R171). -/
  counted  : ∀ d : Domain, (queueAt s d).reservations = waiterCount s d
  /-- A HALTED or DISABLED queue holds neither reservations nor waiters (R171). -/
  closed   : ∀ d : Domain, (queueAt s d).state ≠ .enabled → (queueAt s d).reservations = 0
  /-- The bound itself, on a queue that is ENABLED (R171). -/
  room     : ∀ d : Domain, (queueAt s d).state = .enabled → ∃ desc, (queueAt s d).desc = some desc
    ∧ (queueAt s d).cqTail < desc.cqSize ∧ (queueAt s d).cqHead < desc.cqSize
    ∧ writtenCount (queueAt s d) + (queueAt s d).reservations + fetchReservation s d ≤ desc.cqSize - 1
  /-- A fetch that is not void belongs to an ENABLED queue (R173). -/
  fetched  : ∀ f, s.intake.fetch = some f → f.void = false → (queueAt s f.domain).state = .enabled ∧ ¬ loadingOrAligning s
  /-- A write whose outcome counts belongs to an ENABLED queue (R175). -/
  written  : ∀ w ∈ s.host.writes, w.live = true → ∀ d, w.owner = .queue d → (queueAt s d).state = .enabled ∧ ¬ loadingOrAligning s
  /-- Either every queue has a ring descriptor or none has (R165). -/
  together : ∀ d e : Domain, (queueAt s d).desc.isSome = (queueAt s e).desc.isSome
  /-- The sizes are those of R165. -/
  sizes    : ∀ d : Domain, ∀ desc, (queueAt s d).desc = some desc → 4 ≤ desc.cqSize
  /-- A domain is enabled exactly when its queue is not DISABLED (R114). -/
  agree    : ∀ d : Domain, (domainAt s d).enabled = true ↔ (queueAt s d).state ≠ .disabled
  /-- No waiter stands outside RUNNING (R161). -/
  running  : s.run.state ≠ .running → s.waiters = []
  /-- At most one read of a load stands, and in LOADING alone (R185). -/
  loads    : (s.host.loadReads.filter LoadRead.live).length ≤ if s.run.state = .loading then 1 else 0

/-- The Sequencer, the Fault Unit and the Resource Table agree: STEPPING and a step are one fact and no resource has two steps (R48); CLEARING and
a clear record are one fact (R91); the Cut List holds no resource twice (R83) and none that has a step; and every resource that is LOCKED, CLEARING
or on the Cut List has level OFF (R81). -/
structure ResourceLaw (s : State) : Prop where
  /-- Resource slots are in canonical form. -/
  resources    : tsorted s.resources = true
  /-- Step slots are in canonical form. -/
  steps        : tsorted s.steps = true
  /-- STEPPING is having a step (R48). -/
  stepping     : ∀ e ∈ s.resources, e.2.cond = .stepping ↔ hasStep s e.1 = true
  /-- A step names a present resource (R48). -/
  stepPresent  : ∀ e ∈ s.steps, (resourceAt s e.2.resource).isSome = true
  /-- No resource is the subject of two steps (R48). -/
  stepOnce     : (s.steps.map fun e => e.2.resource).Nodup
  /-- CLEARING is having a clear record (R91). -/
  clearing     : ∀ e ∈ s.resources, e.2.cond = .clearing ↔ tmem s.fault.clears e.1 = true
  /-- A clear record names a present resource (R91). -/
  clearPresent : ∀ e ∈ s.fault.clears, (resourceAt s e.1).isSome = true
  /-- The Cut List never holds a resource twice (R83). -/
  cutOnce      : (s.fault.cutList.map CutEntry.resource).Nodup
  /-- A Cut List entry names a present resource (R83). -/
  cutPresent   : ∀ e ∈ s.fault.cutList, (resourceAt s e.resource).isSome = true
  /-- A resource on the Cut List has no step (R81). -/
  cutNoStep    : ∀ e ∈ s.fault.cutList, hasStep s e.resource = false
  /-- LOCKED, CLEARING and Cut List membership imply level OFF and no setpoint (R81). -/
  off          : ∀ e ∈ s.resources, e.2.cond = .locked ∨ e.2.cond = .clearing ∨ onCutList s e.1 = true →
    e.2.level = .off ∧ e.2.setpoint = none

/-- The level law of R15 on a forest of the allowed depth, with what the steps in flight must satisfy for it to stay: a NORMAL step, whenever it
records, records no level above a parent's and leaves no child above its own. -/
structure LevelLaw (s : State) : Prop where
  /-- No parent chain is longer than 8 resources (R7, R14). -/
  shallow : isShallow (presentConfigs s) = true
  /-- Every parent of a present resource is present, and the resource's level is never above it (R14, R15). -/
  level   : ∀ e ∈ s.resources, ∀ p ∈ e.2.cfg.parents, ∃ y, resourceAt s p = some y ∧ levelLe e.2.level y.level = true
  /-- The to level of a NORMAL step is not above the level of a parent (R54). -/
  goal    : ∀ e ∈ s.steps, e.2.purpose = .normal → ∀ p ∈ parentsOf s e.2.resource, ∀ y, resourceAt s p = some y →
    levelLe e.2.goal.level y.level = true
  /-- Under a NORMAL LOWER, no child is above its to level, nor is the to level of a child's NORMAL step (R53). -/
  lower   : ∀ e ∈ s.steps, e.2.purpose = .normal → e.2.direction = .lower → ∀ c ∈ childrenOf s e.2.resource,
    (∀ y, resourceAt s c = some y → levelLe y.level e.2.goal.level = true)
    ∧ ∀ f ∈ s.steps, f.2.resource = c → f.2.purpose = .normal → levelLe f.2.goal.level e.2.goal.level = true
  /-- A NORMAL RAISE or SETPOINT step does not end below the recorded level (R51, R52). -/
  rise    : ∀ e ∈ s.steps, e.2.purpose = .normal → e.2.direction ≠ .lower → ∀ x, resourceAt s e.2.resource = some x →
    levelLe x.level e.2.goal.level = true

end Sys2Proof.Machine
end

