-- ==== Sys2Proof/Certificates/Slice0/Obligations.lean ====
section
/-! DEFINITION. The statements about the DZ7140 model that are to be proved, in the order of OBLIGATIONS.json. -/

open Sys2Proof Sys2Proof.Machine

/-! ## The machine as a whole -/

/-- A step takes the happening at the front of the queue, with the queue's rest (00_scope, HOW BEHAVIOUR IS STATED: a happening is taken
whole). The queue itself is the model's (entry 17). -/
def Obligations.StepTakesTheFrontHappening : Prop :=
  ∀ (c : Instr) (s : State) (rest : List Instr), s.pending = c :: rest → step s = exec c (setPending s rest)

/-- On an empty queue 10 µs pass (the model's choice, entry 1): deadlines, settle and hold timers, the response timer, the period timer and
the leases that run (those of R120) count one unit down, the run time counts outside STOPPED (R182), and nothing else changes. -/
def Obligations.IdleStepCountsTimersDown : Prop :=
  ∀ s : State, s.pending = [] → ∃ t, step s = .next t
    ∧ (∀ k, tget t.waiters k = (tget s.waiters k).map fun w => { w with deadline := w.deadline.map (· - 1) })
    ∧ (∀ k st n, stepAt s k = some st → st.state = .settling n → stepAt t k = some { st with state := .settling (n - 1) })
    ∧ (∀ k st n, stepAt s k = some st → st.state = .holding n → stepAt t k = some { st with state := .holding (n - 1) })
    ∧ (∀ k st, stepAt s k = some st → st.state = .awaitingLink ∨ st.state = .issued → stepAt t k = some st)
    ∧ (∀ k, stepAt s k = none → stepAt t k = none)
    ∧ t.link = { s.link with transaction := s.link.transaction.map fun tr => { tr with timer := tr.timer - 1 }
                             pollTimer := s.link.pollTimer.map (· - 1) }
    ∧ t.run = (if s.run.state = .stopped then s.run
        else if s.run.subTick + 1 < 100 then { s.run with subTick := s.run.subTick + 1 }
        else { s.run with subTick := 0, runTime := s.run.runTime + 1 })
    ∧ (∀ d, domainAt t d = if s.run.state = .running ∧ (domainAt s d).enabled = true
          ∧ ((domainAt s d).posture = some .active ∨ (domainAt s d).posture = some .drowsy) ∧ (domainAt s d).leasePeriod ≠ 0 then
        { domainAt s d with lease := (domainAt s d).lease.map (· - 1) } else domainAt s d)
    ∧ t.resources = s.resources ∧ t.votes = s.votes ∧ t.holds = s.holds ∧ t.grants = s.grants ∧ t.fault = s.fault
    ∧ t.queues = s.queues ∧ t.host = s.host ∧ t.intake = s.intake ∧ t.events = s.events ∧ t.pending = []

/-- Every happening is taken whole, with a next state, and leaves the queue of happenings as it was: nothing in the spec stops the part.
That a happening whose conditions do not hold leaves the state as it was is the model's choice (entry 3). -/
def Obligations.EveryHappeningGivesANextState : Prop :=
  ∀ (c : Instr) (s : State), ∃ t, exec c s = .next t ∧ t.pending = s.pending

/-- What hardware reset leaves in every table (R24, R31, R73, R94, R113, R115, R127, R151, R166, R172, R177, R182), and that the laws hold
there. -/
def Obligations.ResetIsEmptyAndLawful : Prop :=
  (∀ r, resourceAt State.reset r = none) ∧ (∀ d r, cellAt State.reset d r = none) ∧ State.reset.holds = []
  ∧ State.reset.grants = [] ∧ State.reset.steps = [] ∧ State.reset.waiters = []
  ∧ (∀ d, domainAt State.reset d = { enabled := false, posture := none, weight := 1, leasePeriod := 0, lease := none })
  ∧ (∀ d, queueAt State.reset d = { desc := none, sqTail := 0, sqHead := 0, cqTail := 0, cqHead := 0, cqPhase := true,
                                    reservations := 0, armed := false, state := .disabled })
  ∧ State.reset.link.transaction = none ∧ State.reset.link.requests = [] ∧ State.reset.link.notices = []
  ∧ State.reset.fault = { safe := false, tripCause := none, cutList := [], clears := [] }
  ∧ State.reset.intake = { current := 0, turn := 0, fetch := none }
  ∧ State.reset.events = { desc := none, tail := 0, head := 0, phase := true, dropped := 0, armed := false, enabled := false }
  ∧ State.reset.run.state = .stopped ∧ State.reset.run.loadError = .none ∧ State.reset.run.resetRefused = false
  ∧ State.reset.run.runTime = 0 ∧ State.reset.run.cbAddr = 0
  ∧ NoticeLaw State.reset ∧ GrantLaw State.reset ∧ TableLaw State.reset ∧ RingLaw State.reset ∧ ResourceLaw State.reset
  ∧ LevelLaw State.reset

/-- From every state, a run's or not, in which the Notice FIFO holds at most 16 notices, a notice in reception with credit counted, a step
keeps it so (R95, R103, R104). -/
def Obligations.EveryStepKeepsTheNoticeLaw : Prop := ∀ s t : State, NoticeLaw s → step s = .next t → NoticeLaw t

/-- From every state in which the grant entries are in canonical form and each present cell of D1 to D7 is one that the grants allow, a step
keeps it so (R124, R125). -/
def Obligations.EveryStepKeepsTheGrantLaw : Prop := ∀ s t : State, GrantLaw s → step s = .next t → GrantLaw t

/-- From every state in which resources, cells, holds, grants, steps, clear records and waiters stand in rising order within 64, 64, 64, 32,
4, 64 and 32 places, a step keeps it so. -/
def Obligations.EveryStepKeepsTheTableLaw : Prop := ∀ s t : State, TableLaw s → step s = .next t → TableLaw t

/-- The completion ring law (R171) is kept by every step: a domain's reservations are its waiters, and on an ENABLED queue the written
completions, the reservations and a fetch reservation stay at or below the CQ size minus 1, with what keeps that so. -/
def Obligations.EveryStepKeepsTheRingLaw : Prop := ∀ s t : State, RingLaw s → step s = .next t → RingLaw t

/-- The law of steps, locks and the Cut List (R48, R81, R83, R91) is kept by every step: STEPPING is having one step, CLEARING is having a
clear record, the Cut List holds no resource twice and none with a step, and what is LOCKED, CLEARING or on it is at OFF without a setpoint.
Where it holds, every step also keeps the level law (R15): no resource's level is above a parent's, and no step in flight will make it so. -/
def Obligations.EveryStepKeepsTheResourceLaw : Prop :=
  ∀ s t : State, ResourceLaw s → step s = .next t → ResourceLaw t ∧ (LevelLaw s → LevelLaw t)

/-! ## The register window and resets -/

/-- A write to CB_ADDRESS_LOW or CB_ADDRESS_HIGH in STOPPED sets its half of the address, the two lowest bits not kept; in any other run
state it is ignored (R184). The register window (R196): a CONTROL write with SOFT_RESET is a soft reset with its RUN bit and else a RUN 1 or
RUN 0, a NOTIFY write is its kind with domain and index; a CONTROL write acts on bits 0 and 1 alone, a NOTIFY write of a kind on its index,
domain and kind alone; a write to STATUS, at 0x14 and above, or with NOTIFY kind 0 is an ignored row, which leaves no trace; STATUS and
CONTROL read their fields with reserved bits 0 (R183), and every other register, and 0x14 and above, reads 0. -/
def Obligations.RegisterWindow : Prop :=
  (∀ (v : BitVec 32) (s : State),
    (s.run.state = .stopped →
      (∃ t, exec (.cbAddressLow v) s = .next t ∧ t = setRun s { s.run with cbAddr := t.run.cbAddr }
        ∧ t.run.cbAddr.toNat = s.run.cbAddr.toNat / 2 ^ 32 * 2 ^ 32 + v.toNat / 4 * 4)
      ∧ ∃ t, exec (.cbAddressHigh v) s = .next t ∧ t = setRun s { s.run with cbAddr := t.run.cbAddr }
        ∧ t.run.cbAddr.toNat = v.toNat * 2 ^ 32 + s.run.cbAddr.toNat % 2 ^ 32)
    ∧ (s.run.state ≠ .stopped → exec (.cbAddressLow v) s = .next s ∧ exec (.cbAddressHigh v) s = .next s))
  ∧ (∀ v : BitVec 32,
    (v.toNat % 4 = 0 → decodeRegisterWrite 0x00 v = some .runClear) ∧ (v.toNat % 4 = 1 → decodeRegisterWrite 0x00 v = some .runSet)
    ∧ (v.toNat % 4 = 2 → decodeRegisterWrite 0x00 v = some (.softReset false))
    ∧ (v.toNat % 4 = 3 → decodeRegisterWrite 0x00 v = some (.softReset true))
    ∧ decodeRegisterWrite 0x08 v = some (.cbAddressLow v) ∧ decodeRegisterWrite 0x0C v = some (.cbAddressHigh v)
    ∧ ∀ (d : Domain) (i : Byte), v.toNat % 256 = i.toNat → v.toNat / 256 % 8 = d.val →
      (v.toNat / 4096 % 4 = 1 → decodeRegisterWrite 0x10 v = some (.sqTail d i))
      ∧ (v.toNat / 4096 % 4 = 2 → decodeRegisterWrite 0x10 v = some (.cqHead d i))
      ∧ (v.toNat / 4096 % 4 = 3 → decodeRegisterWrite 0x10 v = some (.eventHead i)))
  ∧ (∀ (s : State) (a : BitVec 32), readRegister s 0x00 = some (readControl s) ∧ readRegister s 0x04 = some (readStatus s)
    ∧ (a = 0x08 ∨ a = 0x0C ∨ a = 0x10 ∨ 0x14 ≤ a.toNat → readRegister s a = some 0))
  ∧ ((∀ v w : BitVec 32, v.extractLsb' 0 2 = w.extractLsb' 0 2 → decodeRegisterWrite 0x00 v = decodeRegisterWrite 0x00 w)
  ∧ (∀ v w : BitVec 32, v.extractLsb' 0 11 = w.extractLsb' 0 11 → v.extractLsb' 12 2 = w.extractLsb' 12 2 →
      v.extractLsb' 12 2 ≠ 0 → decodeRegisterWrite 0x10 v = decodeRegisterWrite 0x10 w)
  ∧ (∀ (a v : BitVec 32) (s : State), a = 0x04 ∨ 0x14 ≤ a.toNat ∨ (a = 0x10 ∧ v.extractLsb' 12 2 = 0) →
      decodeRegisterWrite a v = some (.registerWriteIgnored a v) ∧ exec (.registerWriteIgnored a v) s = .next s)
  ∧ (∀ s : State, (readStatus s).extractLsb' 0 3 = BitVec.ofNat 3 (runStateCode s.run.state)
      ∧ (readStatus s).getLsbD 3 = s.fault.safe
      ∧ (readStatus s).extractLsb' 4 4 = BitVec.ofNat 4 (loadErrorCode s.run.loadError)
      ∧ (readStatus s).getLsbD 8 = s.run.resetRefused ∧ (readStatus s).extractLsb' 9 23 = 0)
  ∧ (∀ s : State, readControl s
      = if s.run.state = .loading ∨ s.run.state = .aligning ∨ s.run.state = .running then 1 else 0))

/-- RUN 1 in STOPPED enters LOADING (R183, R185): the load error code and the run time are cleared, a fetch in flight is void, outcomes of
writes count no longer (R175, R180, R181), and the header read is asked; a block past the top of the address space fails the load with BUS
in the same happening. That subTick, the model's own, starts at 0 is the model's choice (entry 1). In any other run state RUN 1 clears the
reset-refused flag and does nothing else. RUN 0 in LOADING abandons the load (R185): STOPPED with code NONE, no table changed, its read
outcome counting no longer, and the Link Controller's values of R113. In STOPPED and STOPPING RUN 0 clears the reset-refused flag and does
nothing else (R183). -/
def Obligations.LoadsStartAndAreAbandoned : Prop :=
  (∀ s : State, (s.run.state ≠ .stopped → exec .runSet s = .next (setRun s { s.run with resetRefused := false }))
    ∧ (s.run.state = .stopped → ∃ t, exec .runSet s = .next t
    ∧ (s.run.cbAddr.toNat + 1572 ≤ 2 ^ 64 →
        t.run = { s.run with state := .loading, loadError := .none, resetRefused := false, runTime := 0, subTick := 0 }
        ∧ t.host.loadReads = s.host.loadReads ++ [{ part := .header, addr := s.run.cbAddr, live := true }]
        ∧ t.link = s.link)
    ∧ (2 ^ 64 < s.run.cbAddr.toNat + 1572 →
        t.run = { s.run with state := .stopped, loadError := .bus, resetRefused := false, runTime := 0, subTick := 0 }
        ∧ t.host.loadReads = s.host.loadReads
        ∧ t.link = { s.link with notices := [], pollTimer := none, pollPending := false, currentPoll := none })
    ∧ (∀ f, t.intake.fetch = some f → f.void = true)
    ∧ t.host.writes = s.host.writes.map (fun w => { w with live := false })
    ∧ t.resources = s.resources ∧ t.votes = s.votes ∧ t.holds = s.holds ∧ t.domains = s.domains ∧ t.grants = s.grants
    ∧ t.steps = s.steps ∧ t.fault = s.fault ∧ t.waiters = s.waiters ∧ t.queues = s.queues ∧ t.events = s.events
    ∧ t.pending = s.pending))
  ∧ (∀ s : State, (s.run.state = .stopped ∨ s.run.state = .stopping →
      exec .runClear s = .next (setRun s { s.run with resetRefused := false }))
    ∧ (s.run.state = .loading → ∃ t, exec .runClear s = .next t
    ∧ t.run = { s.run with state := .stopped, loadError := .none, resetRefused := false }
    ∧ t.host.loadReads = s.host.loadReads.map (fun x => { x with live := false }) ∧ t.host.writes = s.host.writes
    ∧ t.link = { s.link with notices := [], pollTimer := none, pollPending := false, currentPoll := none }
    ∧ t.resources = s.resources ∧ t.votes = s.votes ∧ t.holds = s.holds ∧ t.domains = s.domains ∧ t.grants = s.grants
    ∧ t.steps = s.steps ∧ t.fault = s.fault ∧ t.waiters = s.waiters ∧ t.queues = s.queues ∧ t.intake = s.intake
    ∧ t.events = s.events ∧ t.pending = s.pending))

/-- RUN 0 in ALIGNING or RUNNING enters STOPPING (R189): every target is forced to OFF, no resource owes alignment, no unissued step rises,
every clear record is gone, every waiter completed STOPPED (R161), and cells, holds, grants, leases and the event ring stand. A resource
record changes by its condition, by the release of its alignment (R19) and by what a withdrawn step records (R67) alone. -/
def Obligations.RunClearEntersStopping : Prop :=
  ∀ s : State, s.run.state = .aligning ∨ s.run.state = .running → ∃ t, exec .runClear s = .next t
    ∧ t.run = { s.run with state := .stopping, resetRefused := false }
    ∧ t.waiters = [] ∧ (∀ k w, tget s.waiters k = some w → EndedWith s t w .stopped)
    ∧ t.fault = { s.fault with clears := [] }
    ∧ (∀ r x, resourceAt t r = some x →
        x.alignOwed = false ∧ x.cond ≠ .clearing ∧ targetOf t r = some { level := .off, setpoint := none })
    ∧ (∀ k st, stepAt t k = some st → stepAt s k = some st ∧ (isAwaiting st && risesTowards st) = false)
    ∧ (∀ r, (resourceAt t r).map Resource.cfg = (resourceAt s r).map Resource.cfg)
    ∧ (∀ r x, resourceAt s r = some x → hasStep s r = false →
        (resourceAt t r).map withoutCond = some (withoutCond { x with alignOwed := false }))
    ∧ (ResourceLaw s → ∀ k st x, stepAt s k = some st → resourceAt s st.resource = some x →
        (resourceAt t st.resource).map withoutCond
          = some (withoutCond { (if isBarred st then withdrawnRecord st x else x) with alignOwed := false }))
    ∧ t.votes = s.votes ∧ t.holds = s.holds ∧ t.domains = s.domains ∧ t.grants = s.grants ∧ t.intake = s.intake
    ∧ t.events = s.events ∧ t.pending = s.pending

/-- SOFT_RESET 1 in STOPPED returns every block to its reset values and keeps the control block address (R191); in any other run state it is
refused, the flag is set and the RUN bit is acted on (R183). The reset pin does the same whatever the run state and sets the address to 0.
The queue of happenings is the model's and stays (entry 16). -/
def Obligations.ResetsReturnEveryBlock : Prop :=
  ∀ (s : State) (run : Bool),
    exec .hardwareReset s = .next { State.reset with pending := s.pending }
    ∧ (s.run.state = .stopped → exec (.softReset run) s
        = .next { State.reset with run := { State.reset.run with cbAddr := s.run.cbAddr }, pending := s.pending })
    ∧ (s.run.state ≠ .stopped → exec (.softReset true) s = .next (setRun s { s.run with resetRefused := true }))
    ∧ (s.run.state ≠ .stopped → ∃ t, exec (.softReset false) s = .next t ∧ t.run.resetRefused = true
        ∧ t.run.state = (if s.run.state = .loading then .stopped else .stopping)
        ∧ t.votes = s.votes ∧ t.holds = s.holds ∧ t.domains = s.domains ∧ t.grants = s.grants ∧ t.intake = s.intake)

/-! ## Loading and the run states -/

/-- A header that holds the signature, version 1 and length 1,572 is taken, and the read of the remaining 1,540 bytes is asked (R185, R186);
that it is kept in loadHeader until then is the model's choice (entry 19). A load fails with the first code found (R185, R186): by its
header, by the rest of the block, or by a bus error. The run state becomes STOPPED with that code, the Link Controller takes the values of
R113, and no table changes. The outcome of an abandoned load is discarded. An outcome names its read by its place among those outstanding
(the model's choice, entry 5). -/
def Obligations.LoadsAskForTheRestOrFail : Prop :=
  (∀ (s : State) (k : Nat) (data : BitVec 256) (addr : BitVec 64),
    s.host.loadReads[k]? = some { part := .header, addr := addr, live := true } →
    fieldOf data 0 4 = 0x42435A44 → fieldOf data 4 2 = 1 → fieldOf data 6 2 = 1572 →
    ∃ t, exec (.loadHeaderData k data) s = .next t
      ∧ t.run = { s.run with loadHeader := data }
      ∧ t.host.loadReads = s.host.loadReads.eraseIdx k ++ [{ part := .body, addr := s.run.cbAddr + 32, live := true }]
      ∧ t = setRun (setHost s { s.host with loadReads := t.host.loadReads }) t.run)
  ∧ (∀ (s : State) (k : Nat) (addr : BitVec 64) (header : BitVec 256) (body : BitVec 12320) (part : LoadPart) (code : LoadError),
    (s.host.loadReads[k]? = some { part := part, addr := addr, live := true } →
      ∀ c, (c = .loadBusError k ∧ code = .bus
            ∨ c = .loadHeaderData k header ∧ part = .header ∧ headerError header = some code
            ∨ c = .loadBodyData k body ∧ part = .body ∧ bodyError s.run.loadHeader body = some code) →
      exec c s = .next
        { s with
          run := { s.run with state := .stopped, loadError := code }
          host := { s.host with loadReads := s.host.loadReads.eraseIdx k }
          link := { s.link with notices := [], pollTimer := none, pollPending := false, currentPoll := none } })
    ∧ (s.host.loadReads[k]? = some { part := part, addr := addr, live := false } →
      ∀ c, (c = .loadBusError k ∨ c = .loadHeaderData k header ∧ part = .header ∨ c = .loadBodyData k body ∧ part = .body) →
      exec c s = .next (setHost s { s.host with loadReads := s.host.loadReads.eraseIdx k })))

/-- A load that passes validation is taken whole (R187): ALIGNING; every present record at its initial level, WAITING with alignment owed
(R24); hold cells at initial levels above OFF and no domain cell (R27, R31); enabled domains ACTIVE with full leases (R115); no step, no
waiter, no fault state (R73, R94, R151); rings at their start with the block's descriptors (R165, R166, R172, R177), the event phase 1; the
Link Controller's values of R113, the link state kept and the period timer started unless the period is 0 (R106). -/
def Obligations.SuccessfulLoadTakesTheBlock : Prop :=
  ∀ (s : State) (k : Nat) (addr : BitVec 64) (body : BitVec 12320),
    s.host.loadReads[k]? = some { part := .body, addr := addr, live := true } → bodyError s.run.loadHeader body = none →
    ∃ t, exec (.loadBodyData k body) s = .next t
      ∧ t.run = { s.run with state := .aligning }
      ∧ (∀ r, r < 64 → (resourceAt t r).isSome = recordPresent (resourceRecord body r))
      ∧ (∀ r x, resourceAt t r = some x →
          configOf (resourceRecord body r) = some x.cfg ∧ x.level = x.cfg.initial
          ∧ x.setpoint = (if x.cfg.initial = .on ∧ x.cfg.kind ≠ .gate then x.cfg.nominal else none)
          ∧ x.cond = .waiting ∧ x.alignOwed = true ∧ x.lastFault = none ∧ x.faultCount = 0 ∧ x.lastSample = none
          ∧ tget t.holds r = (if x.cfg.initial = .off then none else some x.cfg.initial))
      ∧ (∀ r, resourceAt t r = none → tget t.holds r = none)
      ∧ (∀ d r, cellAt t d r = none)
      ∧ (∀ i, i < 32 → tget t.grants i = if grantValid (grantRecord body i) then grantOf (grantRecord body i) else none)
      ∧ (domainAt t 0).enabled = true
      ∧ (∀ d, (domainAt t d).weight = byteOf (domainDescriptor body d.val) 1
          ∧ (domainAt t d).leasePeriod = byteOf (domainDescriptor body d.val) 2
          ∧ (if byteOf (domainDescriptor body d.val) 0 = 1 then
              (domainAt t d).enabled = true ∧ (domainAt t d).posture = some .active
              ∧ (domainAt t d).lease = fullLease (domainAt t d).leasePeriod
              ∧ (queueAt t d).state = .enabled ∧ (queueAt t d).armed = true
            else (domainAt t d).enabled = false ∧ (domainAt t d).posture = none ∧ (domainAt t d).lease = none
              ∧ (queueAt t d).state = .disabled ∧ (queueAt t d).armed = false)
          ∧ (queueAt t d).sqTail = 0 ∧ (queueAt t d).sqHead = 0 ∧ (queueAt t d).cqTail = 0 ∧ (queueAt t d).cqHead = 0
          ∧ (queueAt t d).cqPhase = true ∧ (queueAt t d).reservations = 0
          ∧ (let x := domainDescriptor body d.val
            (queueAt t d).desc = some
              { sqBase := BitVec.ofNat 64 (fieldOf x 8 8), sqSize := 2 ^ (byteOf x 3 % 16)
                cqBase := BitVec.ofNat 64 (fieldOf x 16 8), cqSize := 2 ^ (byteOf x 3 / 16)
                msgAddr := BitVec.ofNat 64 (fieldOf x 24 8), msgData := BitVec.ofNat 32 (fieldOf x 4 4) }))
      ∧ t.steps = [] ∧ t.waiters = [] ∧ t.fault = { safe := false, tripCause := none, cutList := [], clears := [] }
      ∧ t.link = { s.link with
          requests := [], notices := [], pollPeriod := fieldOf s.run.loadHeader 8 2
          pollTimer := if fieldOf s.run.loadHeader 8 2 = 0 then none else some (fieldOf s.run.loadHeader 8 2 * 100)
          pollPending := false, cursor := 0, currentPoll := none }
      ∧ t.intake = { s.intake with current := 0, turn := 0 }
      ∧ t.events =
          { desc := some { base := BitVec.ofNat 64 (fieldOf s.run.loadHeader 0x10 8), size := 2 ^ byteOf s.run.loadHeader 0x0A
                           msgAddr := BitVec.ofNat 64 (fieldOf s.run.loadHeader 0x18 8)
                           msgData := BitVec.ofNat 32 (fieldOf s.run.loadHeader 0x0C 4) }
            tail := 0, head := 0, phase := true, dropped := 0, armed := true, enabled := true }
      ∧ t.pending = s.pending

/-- ALIGNING ends when no present resource owes alignment and the Cut List is empty (R188): RUNNING, an ALIGN_DONE event, and no target
changes (R40). STOPPING ends when every present resource is recorded at OFF, no slot holds a step and the Cut List is empty (R190):
STOP_DONE, STOPPED, the poller stopped and the Notice FIFO emptied (R105, R112), and the tables as STOPPING left them. While it cannot end,
nothing happens (the model's choice, entry 3). -/
def Obligations.EndsOfAlignmentAndOfStopping : Prop :=
  (∀ s : State,
    (s.run.state = .aligning → (∀ e ∈ s.resources, e.2.alignOwed = false) → s.fault.cutList = [] →
      ∃ t, exec .endOfAlignment s = .next t
        ∧ t = handEvent (setRun s { s.run with state := .running }) (plainEvent .alignDone 0xFF 0)
        ∧ t.run.state = .running ∧ (∀ r, targetOf t r = targetOf s r) ∧ t.resources = s.resources ∧ t.domains = s.domains)
    ∧ (s.run.state ≠ .aligning ∨ (∃ e ∈ s.resources, e.2.alignOwed = true) ∨ s.fault.cutList ≠ [] →
      exec .endOfAlignment s = .next s))
  ∧ (∀ s : State,
    (s.run.state = .stopping → (∀ e ∈ s.resources, e.2.level = .off) → s.steps = [] → s.fault.cutList = [] →
      ∃ t, exec .endOfStopping s = .next t
        ∧ t.run = { s.run with state := .stopped }
        ∧ t.events = (handEvent s (plainEvent .stopDone 0xFF 0)).events ∧ t.host = (handEvent s (plainEvent .stopDone 0xFF 0)).host
        ∧ t.link.notices = [] ∧ t.link.pollTimer = none ∧ t.link.pollPending = false ∧ t.link.currentPoll = none
        ∧ (∀ q ∈ t.link.requests, q.requester ≠ .poller)
        ∧ (∀ tr, t.link.transaction = some tr → tr.requester ≠ some .poller)
        ∧ t.resources = s.resources ∧ t.votes = s.votes ∧ t.holds = s.holds ∧ t.domains = s.domains ∧ t.grants = s.grants
        ∧ t.steps = s.steps ∧ t.fault = s.fault ∧ t.waiters = s.waiters ∧ t.queues = s.queues ∧ t.intake = s.intake
        ∧ t.pending = s.pending)
    ∧ (s.run.state ≠ .stopping ∨ (∃ e ∈ s.resources, e.2.level ≠ .off) ∨ s.steps ≠ [] ∨ s.fault.cutList ≠ [] →
      exec .endOfStopping s = .next s))

/-! ## Targets -/

/-- The derived target (R36, R37, R38): forced to OFF by a lock, SAFE or the run state; else the rounded highest of the effective votes, the
hold cell and the children's target levels, on every tree whose chains are within the limit of R7. The target setpoint (R39) is the highest
effective setpoint, else the nominal setpoint; a GATE, and a target below ON, have none. -/
def Obligations.DerivedTarget : Prop :=
  (∀ (s : State) (r : Nat) (x : Resource), resourceAt s r = some x →
    x.cond = .locked ∨ x.cond = .clearing ∨ s.fault.safe = true ∨ s.run.state = .stopping ∨ s.run.state = .stopped
      ∨ s.run.state = .loading →
    targetOf s r = some { level := .off, setpoint := none })
  ∧ (∀ (s : State) (r : Nat) (x : Resource), tsorted s.resources = true → isShallow (presentConfigs s) = true →
    resourceAt s r = some x → x.cond ≠ .locked → x.cond ≠ .clearing → s.fault.safe = false →
    s.run.state = .aligning ∨ s.run.state = .running →
    targetLevel s r
      = rounded x.cfg.mask (highestLevel ((effectiveVotes s r x.cfg).map Setting.level ++ (tget s.holds r).toList
          ++ (childrenOf s r).map (targetLevel s))))
  ∧ ∀ (s : State) (r : Nat) (x : Resource), resourceAt s r = some x → ∃ g, targetOf s r = some g
    ∧ g.level = targetLevel s r
    ∧ (g.level ≠ .on ∨ x.cfg.kind = .gate → g.setpoint = none)
    ∧ (g.level = .on → x.cfg.kind ≠ .gate →
      ((∀ v ∈ effectiveVotes s r x.cfg, v.setpoint = none) → g.setpoint = x.cfg.nominal)
      ∧ ∀ v ∈ effectiveVotes s r x.cfg, ∀ n, v.setpoint = some n →
          ∃ m, g.setpoint = some m ∧ n ≤ m ∧ ∃ w ∈ effectiveVotes s r x.cfg, w.setpoint = some m)

/-! ## Commands: taking and turning away -/

/-- A command taken outside RUNNING completes STOPPED, and an administrative command of another domain than D0 completes NOT_PERMITTED;
neither touches a table but for the lease restart (R132). A command that the Queue Engine cannot hand over is never taken (the model's
choice, entry 4). -/
def Obligations.CommandsTurnedAway : Prop :=
  ∀ (c : Instr) (tk : Ticket) (s : State), ticketOf c = some tk →
    (canHandOver s tk.domain = true → s.run.state ≠ .running → ∃ t, exec c s = .next t
      ∧ PostedLast t (plainCompletion tk.domain tk.code tk.tag .stopped) ∧ TablesKept s t tk.domain)
    ∧ (Taking s tk.domain → tk.domain ≠ 0 → isAdministrative tk.code = true → ∃ t, exec c s = .next t
      ∧ PostedLast t (plainCompletion tk.domain tk.code tk.tag .notPermitted) ∧ TablesKept s t tk.domain)
    ∧ (canHandOver s tk.domain = false → exec c s = .next s)

/-- The lease restart of R132 and RENEW (R121, R140): a running or frozen lease becomes the full period, a stopped one stays stopped, every
other domain record stands, and the command completes DONE, no table touched. The lease does not expire at that moment (R122). -/
def Obligations.RenewRestartsTheLease : Prop :=
  ∀ (s : State) (d : Domain) (tag : BitVec 16), Taking s d →
    ∃ t, exec (.renew d tag) s = .next t
      ∧ domainAt t d = { domainAt s d with lease := (domainAt s d).lease.bind fun _ => fullLease (domainAt s d).leasePeriod }
      ∧ (∀ e, e ≠ d → domainAt t e = domainAt s e)
      ∧ PostedLast t (plainCompletion d codeRenew tag .done) ∧ TablesKept s t d
      ∧ exec (.leaseExpiry d) t = .next t

/-! ## Commands: voting -/

/-- A VOTE that passes its checks and needs no waiter (R136): the cell is written whole, no other cell changes, the domain's covering VOTE
and LIST waiters completed SUPERSEDED (R158), only conditions change in the Resource Table, and the completion is the first case of the
table that applies. -/
def Obligations.VoteWritesItsCellAndCompletes : Prop :=
  ∀ (s : State) (d : Domain) (tag : BitVec 16) (await : Bool) (deadline : BitVec 16) (r l sp : Byte) (x : Resource) (v : Setting),
    Taking s d → s.fault.safe = false → resourceAt s r.toNat = some x → voteOf x.cfg.kind l.toNat sp.toNat = some v →
    voteAllowed s.grants d r.toNat v = true →
    ∀ status : Status,
      (isLockedOut s r.toNat = true ∧ status = .locked
        ∨ isLockedOut s r.toNat = false ∧ await = false ∧ status = .done
        ∨ isLockedOut s r.toNat = false ∧ await = true ∧ isDetached s d = true ∧ status = .detached
        ∨ isLockedOut s r.toNat = false ∧ await = true ∧ isDetached s d = false
          ∧ satisfiedAt (writeCells (restartLease s d) d [(r.toNat, v)]).state r.toNat v = true ∧ status = .satisfied) →
      ∃ t, exec (.vote d tag await deadline r l sp) s = .next t
        ∧ PostedLast t (plainCompletion d codeVote tag status)
        ∧ cellAt t d r.toNat = some v ∧ OtherCellsKept s t d [r.toNat]
        ∧ (∀ k w, tget t.waiters k = some w → w.domain = d → isVoteOrList w = true → covers w r.toNat = false)
        ∧ (∀ k w, tget s.waiters k = some w → w.domain = d → isVoteOrList w = true →
            covers w r.toNat = true → EndedWith s t w .superseded)
        ∧ OnlyConditionsChange s t ∧ t.domains = (restartLease s d).domains ∧ DomainFrame s t

/-- A VOTE with await that is not yet satisfied leaves a VOTE waiter, when an entry is free once the superseded ones have completed
SUPERSEDED (R158) and are released (R134, R136, R152); with no such entry it completes WAITERS_FULL and changes nothing. -/
def Obligations.VoteLeavesAWaiter : Prop :=
  ∀ (s : State) (d : Domain) (tag deadline : BitVec 16) (r l sp : Byte) (x : Resource) (v : Setting),
    Taking s d → s.fault.safe = false → resourceAt s r.toNat = some x → voteOf x.cfg.kind l.toNat sp.toNat = some v →
    voteAllowed s.grants d r.toNat v = true → isLockedOut s r.toNat = false → isDetached s d = false →
    satisfiedAt (writeCells (restartLease s d) d [(r.toNat, v)]).state r.toNat v = false →
    (entryFreeAfter s (supersededBy s d [r.toNat]) = true →
      ∃ t k, exec (.vote d tag true deadline r l sp) s = .next t
        ∧ tget t.waiters k = some { domain := d, tag := tag, body := .vote r.toNat v, deadline := deadlineTimer deadline }
        ∧ k < 32 ∧ (∀ j, j < k → (tget t.waiters j).isSome = true)
        ∧ cellAt t d r.toNat = some v ∧ OtherCellsKept s t d [r.toNat]
        ∧ (∀ j w, j ≠ k → tget t.waiters j = some w → w.domain = d → isVoteOrList w = true → covers w r.toNat = false)
        ∧ (∀ j w, tget s.waiters j = some w → w.domain = d → isVoteOrList w = true →
            covers w r.toNat = true → EndedWith s t w .superseded)
        ∧ OnlyConditionsChange s t ∧ t.domains = (restartLease s d).domains ∧ DomainFrame s t)
    ∧ (entryFreeAfter s (supersededBy s d [r.toNat]) = false →
      ∃ t, exec (.vote d tag true deadline r l sp) s = .next t
        ∧ PostedLast t (plainCompletion d codeVote tag .waitersFull) ∧ TablesKept s t d)

/-- The checks of a VOTE in their order (R135): the first that fails gives the completion; no cell is written and no waiter is superseded. -/
def Obligations.VoteRefusals : Prop :=
  ∀ (s : State) (d : Domain) (tag : BitVec 16) (await : Bool) (deadline : BitVec 16) (r l sp : Byte) (status : Status),
    Taking s d →
    (s.fault.safe = true ∧ status = .safe
      ∨ s.fault.safe = false ∧ resourceAt s r.toNat = none ∧ status = .badResource
      ∨ s.fault.safe = false ∧ (∃ x, resourceAt s r.toNat = some x ∧ status = .badCommand
          ∧ (l.toNat ≠ 1 ∧ l.toNat ≠ 2 ∧ l.toNat ≠ 3
            ∨ l.toNat = 3 ∧ x.cfg.kind = .rail ∧ 31 < sp.toNat
            ∨ l.toNat = 3 ∧ x.cfg.kind = .clock ∧ 7 < sp.toNat
            ∨ (l.toNat ≠ 3 ∨ x.cfg.kind = .gate) ∧ sp.toNat ≠ 0xFF))
      ∨ s.fault.safe = false ∧ (∃ x v, resourceAt s r.toNat = some x ∧ voteOf x.cfg.kind l.toNat sp.toNat = some v
          ∧ voteAllowed s.grants d r.toNat v = false ∧ status = .denied)) →
    ∃ t, exec (.vote d tag await deadline r l sp) s = .next t
      ∧ PostedLast t (plainCompletion d codeVote tag status) ∧ TablesKept s t d

/-- A VOTE_LIST that passes its checks and needs no waiter writes all its cells together, supersedes the VOTE and LIST waiters that cover
them (R158) and completes by the first case of R138's table: LOCKED with the lowest locked index, DONE without await, DETACHED, or
SATISFIED; one whose entry fails a check completes with the status and index of the first failing entry and writes nothing (R137), and so
does one that finds SAFE set (SAFE) or whose count is outside 1..6 (BAD_COMMAND). -/
def Obligations.VoteListWritesAllOrNothing : Prop :=
  ∀ (s : State) (d : Domain) (tag deadline : BitVec 16) (await : Bool) (count : Byte) (entries : BitVec 144),
    Taking s d →
    (∀ votes status, s.fault.safe = false → 1 ≤ count.toNat → count.toNat ≤ 6 →
      checkEntries s d 0 [] (listEntries entries count.toNat) = .ok votes →
      ((lockedIndex s votes).isSome = true ∧ status = .locked
        ∨ lockedIndex s votes = none ∧ await = false ∧ status = .done
        ∨ lockedIndex s votes = none ∧ await = true ∧ isDetached s d = true ∧ status = .detached
        ∨ lockedIndex s votes = none ∧ await = true ∧ isDetached s d = false
          ∧ (∀ c ∈ votes, satisfiedAt (writeCells (restartLease s d) d votes).state c.1 c.2 = true) ∧ status = .satisfied) →
      ∃ t, exec (.voteList d tag await deadline count entries) s = .next t
        ∧ PostedLast t { domain := d, code := codeVoteList, tag := tag, status := status, payload := indexPayload (lockedIndex s votes) }
        ∧ (∀ c ∈ votes, cellAt t d c.1 = some c.2) ∧ OtherCellsKept s t d (votes.map Prod.fst)
        ∧ (∀ k w, tget t.waiters k = some w → w.domain = d → isVoteOrList w = true → coversAny w (votes.map Prod.fst) = false)
        ∧ (∀ k w, tget s.waiters k = some w → w.domain = d → isVoteOrList w = true → coversAny w (votes.map Prod.fst) = true →
            EndedWith s t w .superseded)
        ∧ OnlyConditionsChange s t ∧ t.domains = (restartLease s d).domains ∧ DomainFrame s t)
    ∧ (∀ k status, s.fault.safe = false → 1 ≤ count.toNat → count.toNat ≤ 6 →
      checkEntries s d 0 [] (listEntries entries count.toNat) = .error (k, status) →
      ∃ t, exec (.voteList d tag await deadline count entries) s = .next t
        ∧ PostedLast t { domain := d, code := codeVoteList, tag := tag, status := status, payload := indexPayload (some k) }
        ∧ TablesKept s t d)
    ∧ (∀ status, (s.fault.safe = true ∧ status = .safe
          ∨ s.fault.safe = false ∧ (count.toNat < 1 ∨ 6 < count.toNat) ∧ status = .badCommand) →
      ∃ t, exec (.voteList d tag await deadline count entries) s = .next t
        ∧ PostedLast t (plainCompletion d codeVoteList tag status) ∧ TablesKept s t d)

/-- A VOTE_LIST with await that has an unsatisfied entry leaves a LIST waiter over its unsatisfied entries, when an entry is free once the
superseded ones have completed SUPERSEDED and are released (R134, R138, R152); with no such entry it completes WAITERS_FULL and changes
nothing. -/
def Obligations.VoteListLeavesAWaiter : Prop :=
  ∀ (s : State) (d : Domain) (tag deadline : BitVec 16) (count : Byte) (entries : BitVec 144) (votes : List (Nat × Setting)),
    Taking s d → s.fault.safe = false → 1 ≤ count.toNat → count.toNat ≤ 6 →
    checkEntries s d 0 [] (listEntries entries count.toNat) = .ok votes → lockedIndex s votes = none → isDetached s d = false →
    (∃ c ∈ votes, satisfiedAt (writeCells (restartLease s d) d votes).state c.1 c.2 = false) →
    (entryFreeAfter s (supersededBy s d (votes.map Prod.fst)) = true →
      ∃ t k w voted, exec (.voteList d tag true deadline count entries) s = .next t
        ∧ tget t.waiters k = some w ∧ w = { domain := d, tag := tag, body := .list voted, deadline := deadlineTimer deadline }
        ∧ k < 32 ∧ (∀ j, j < k → (tget t.waiters j).isSome = true)
        ∧ (∀ r v, tget voted r = some v ↔ (r, v) ∈ votes
            ∧ satisfiedAt (writeCells (restartLease s d) d votes).state r v = false)
        ∧ (∀ c ∈ votes, cellAt t d c.1 = some c.2) ∧ OtherCellsKept s t d (votes.map Prod.fst)
        ∧ (∀ j w', j ≠ k → tget t.waiters j = some w' → w'.domain = d → isVoteOrList w' = true →
            coversAny w' (votes.map Prod.fst) = false)
        ∧ (∀ j w', tget s.waiters j = some w' → w'.domain = d → isVoteOrList w' = true → coversAny w' (votes.map Prod.fst) = true →
            EndedWith s t w' .superseded)
        ∧ OnlyConditionsChange s t ∧ t.domains = (restartLease s d).domains ∧ DomainFrame s t)
    ∧ (entryFreeAfter s (supersededBy s d (votes.map Prod.fst)) = false →
      ∃ t, exec (.voteList d tag true deadline count entries) s = .next t
        ∧ PostedLast t (plainCompletion d codeVoteList tag .waitersFull) ∧ TablesKept s t d)

/-- A WITHDRAW (R139): the named cell, or for 0xFF every cell of the domain, becomes absent; the covering VOTE and LIST waiters complete
SUPERSEDED (R158), the FENCE waiters leave out the withdrawn resources, and the command completes DONE. An absent cell changes nothing; an
absent resource is BAD_RESOURCE. -/
def Obligations.WithdrawDropsCells : Prop :=
  ∀ (s : State) (d : Domain) (tag : BitVec 16) (r : Byte), Taking s d →
    (∀ x c, r ≠ 0xFF → resourceAt s r.toNat = some x → cellAt s d r.toNat = some c →
      ∃ t, exec (.withdraw d tag r) s = .next t
        ∧ PostedLast t (plainCompletion d codeWithdraw tag .done)
        ∧ cellAt t d r.toNat = none ∧ OtherCellsKept s t d [r.toNat]
        ∧ (∀ k w, tget t.waiters k = some w → w.domain = d → isVoteOrList w = true ∨ isFence w = true →
            covers w r.toNat = false)
        ∧ (∀ k w, tget s.waiters k = some w → w.domain = d → isVoteOrList w = true →
            covers w r.toNat = true → EndedWith s t w .superseded)
        ∧ OnlyConditionsChange s t ∧ t.domains = (restartLease s d).domains ∧ DomainFrame s t)
    ∧ (r = 0xFF → ∃ t, exec (.withdraw d tag r) s = .next t
        ∧ PostedLast t (plainCompletion d codeWithdraw tag .done)
        ∧ cellsOf t d = [] ∧ (∀ e, e ≠ d → cellsOf t e = cellsOf s e)
        ∧ (∀ k w, tget t.waiters k = some w → w.domain = d → isVoteOrList w = false
            ∧ (isFence w = true → coversAny w (tkeys (cellsOf s d)) = false))
        ∧ (∀ k w, tget s.waiters k = some w → w.domain = d → isVoteOrList w = true → EndedWith s t w .superseded)
        ∧ OnlyConditionsChange s t ∧ t.domains = (restartLease s d).domains ∧ DomainFrame s t)
    ∧ (∀ status, r ≠ 0xFF → (resourceAt s r.toNat = none ∧ status = .badResource
          ∨ (resourceAt s r.toNat).isSome = true ∧ cellAt s d r.toNat = none ∧ status = .done) →
        ∃ t, exec (.withdraw d tag r) s = .next t ∧ PostedLast t (plainCompletion d codeWithdraw tag status)
          ∧ TablesKept s t d)

/-- The outcomes of a FENCE, the first case that applies (R143): SAFE, LOCKED, DETACHED, SATISFIED, a FENCE waiter over every present cell
of the domain (R156), or WAITERS_FULL. It writes no cell and supersedes no waiter. -/
def Obligations.FenceOutcomes : Prop :=
  ∀ (s : State) (d : Domain) (tag deadline : BitVec 16), Taking s d →
    let w : Waiter := { domain := d, tag := tag, body := .fence (tkeys (cellsOf s d)), deadline := deadlineTimer deadline }
    let locked := (tkeys (cellsOf s d)).any (isLockedOut s)
    (∀ status,
      (s.fault.safe = true ∧ status = .safe
        ∨ s.fault.safe = false ∧ locked = true ∧ status = .locked
        ∨ s.fault.safe = false ∧ locked = false ∧ isDetached s d = true ∧ status = .detached
        ∨ s.fault.safe = false ∧ locked = false ∧ isDetached s d = false ∧ waiterSatisfied s w = true ∧ status = .satisfied
        ∨ s.fault.safe = false ∧ locked = false ∧ isDetached s d = false ∧ waiterSatisfied s w = false
          ∧ entryFreeAfter s [] = false ∧ status = .waitersFull) →
      ∃ t, exec (.fence d tag deadline) s = .next t ∧ PostedLast t (plainCompletion d codeFence tag status) ∧ TablesKept s t d)
    ∧ (s.fault.safe = false → locked = false → isDetached s d = false → waiterSatisfied s w = false → entryFreeAfter s [] = true →
      ∃ t, exec (.fence d tag deadline) s = .next t ∧ WaiterCreated s t w ∧ t.host = s.host ∧ t.link = s.link
        ∧ t.domains = (restartLease s d).domains ∧ (∀ e, e ≠ d → queueAt t e = queueAt s e)
        ∧ t.resources = s.resources ∧ t.votes = s.votes ∧ t.steps = s.steps ∧ DomainFrame s t)

/-! ## Commands: postures, queries, grants and domains -/

/-- A POSTURE to another posture than DETACHED held already (R117, R119): the posture is written, the lease restarts at the full period or
stops, on entering DETACHED every waiter of the domain completes DETACHED (R160), the cells stand, and the command completes DONE. Another
code completes BAD_COMMAND (R140). -/
def Obligations.PostureChangesItsDomain : Prop :=
  ∀ (s : State) (d : Domain) (tag : BitVec 16) (code : Byte), Taking s d →
    (∀ p, postureOfCode code.toNat = some p → ¬ (p = .detached ∧ isDetached s d = true) →
      ∃ t, exec (.posture d tag code) s = .next t
        ∧ PostedLast t (plainCompletion d codePosture tag .done)
        ∧ domainAt t d = { domainAt s d with
            posture := some p, lease := if p = .detached then none else fullLease (domainAt s d).leasePeriod }
        ∧ (∀ e, e ≠ d → domainAt t e = domainAt s e)
        ∧ (p = .detached → (∀ k w, tget t.waiters k = some w → w.domain ≠ d)
            ∧ ∀ k w, tget s.waiters k = some w → w.domain = d → EndedWith s t w .detached)
        ∧ t.votes = s.votes ∧ OnlyConditionsChange s t ∧ DomainFrame s t)
    ∧ (∀ status, (postureOfCode code.toNat = none ∧ status = .badCommand
          ∨ code = 3 ∧ isDetached s d = true ∧ status = .done) →
      ∃ t, exec (.posture d tag code) s = .next t ∧ PostedLast t (plainCompletion d codePosture tag status) ∧ TablesKept s t d)

/-- A QUERY that is not fresh completes DONE with the result read from the tables as it is taken, and changes no table but by its lease
restart (R141); on an absent resource it completes BAD_RESOURCE. The result's bytes are those of 11.2. -/
def Obligations.QueryReportsTheTables : Prop :=
  ∀ (s : State) (d : Domain) (tag deadline : BitVec 16) (r : Byte), Taking s d →
    (∀ x, resourceAt s r.toNat = some x → ∃ t result, exec (.query d tag false deadline r) s = .next t
      ∧ PostedLast t { domain := d, code := codeQuery, tag := tag, status := .done, payload := result } ∧ TablesKept s t d
      ∧ result = queryResult (restartLease s d) d r.toNat x ∧ result.length = 12
      ∧ (∀ b, result[0]? = some b → b.toNat % 4 = levelCode x.level
          ∧ b.toNat / 4 % 4 = levelCode (targetLevel (restartLease s d) r.toNat)
          ∧ b.toNat / 16 % 8 = (match cellAt s d r.toNat with
              | some c => levelCode c.level
              | none => 0)
          ∧ b.toNat / 128 = (if x.lastSample.isSome then 1 else 0))
      ∧ result[2]? = some (BitVec.ofNat 8 (conditionCode x.cond)) ∧ result[4]? = some (BitVec.ofNat 8 x.faultCount)
      ∧ (x.setpoint = none → result[1]? = some 0xFF))
    ∧ (resourceAt s r.toNat = none → ∃ t, exec (.query d tag false deadline r) s = .next t
      ∧ PostedLast t (plainCompletion d codeQuery tag .badResource) ∧ TablesKept s t d)

/-- A fresh QUERY of a powered resource that is neither LOCKED nor CLEARING (R142, R110): a DETACHED domain gets the stored values at once
with status DETACHED; else a QUERY waiter with attempts used 0 is created and places one SAMPLE request, the youngest; with no free entry it
completes WAITERS_FULL. At OFF, LOCKED or CLEARING it completes DONE at once. -/
def Obligations.FreshQueryPlacesOneRequest : Prop :=
  ∀ (s : State) (d : Domain) (tag deadline : BitVec 16) (r : Byte) (x : Resource), Taking s d → resourceAt s r.toNat = some x →
    (x.level ≠ .off → isLockedOut s r.toNat = false → isDetached s d = false → entryFreeAfter s [] = true →
      ∃ t k, exec (.query d tag true deadline r) s = .next t
        ∧ WaiterCreated s t { domain := d, tag := tag, body := .query r.toNat 0, deadline := deadlineTimer deadline }
        ∧ tget s.waiters k = none ∧ (tget t.waiters k).isSome = true
        ∧ t.link = { s.link with requests := s.link.requests ++ [{ requester := .query k, resource := r.toNat }] }
        ∧ t.host = s.host ∧ t.resources = s.resources ∧ t.votes = s.votes ∧ t.steps = s.steps ∧ DomainFrame s t
        ∧ t.domains = (restartLease s d).domains ∧ (∀ e, e ≠ d → queueAt t e = queueAt s e))
    ∧ (x.level ≠ .off → isLockedOut s r.toNat = false → isDetached s d = false → entryFreeAfter s [] = false →
      ∃ t, exec (.query d tag true deadline r) s = .next t
        ∧ PostedLast t (plainCompletion d codeQuery tag .waitersFull) ∧ TablesKept s t d)
    ∧ (∀ status, (x.level = .off ∨ isLockedOut s r.toNat = true) ∧ status = .done
          ∨ x.level ≠ .off ∧ isLockedOut s r.toNat = false ∧ isDetached s d = true ∧ status = .detached →
      ∃ t, exec (.query d tag true deadline r) s = .next t
        ∧ PostedLast t { domain := d, code := codeQuery, tag := tag, status := status,
                         payload := queryResult (restartLease s d) d r.toNat x } ∧ TablesKept s t d)

/-- A GRANT or REVOKE of D0 (R125, R147): the entry is replaced whole and no other; every present cell of the domain that the entry named
before and that the new table does not allow is withdrawn, its covering VOTE, LIST and FENCE waiters complete REVOKED (R159), and the
command completes DONE. An entry number above 31 completes BAD_COMMAND. -/
def Obligations.GrantAndRevokeReplaceOneEntry : Prop :=
  ∀ (s : State) (tag : BitVec 16) (e : Byte) (rec : BitVec 64), Taking s 0 → (∀ d, tsorted (cellsOf s d) = true) →
    (∀ contents, e.toNat ≤ 31 → grantContents rec = some contents → ∃ t, exec (.grant 0 tag e rec) s = .next t
      ∧ PostedLast t (plainCompletion 0 codeGrant tag .done)
      ∧ tget t.grants e.toNat = contents ∧ (∀ j, j ≠ e.toNat → tget t.grants j = tget s.grants j)
      ∧ CellsJudgedByGrants s t e.toNat ∧ OnlyConditionsChange s t ∧ t.domains = (restartLease s 0).domains
      ∧ t.run = s.run ∧ t.holds = s.holds ∧ t.fault = s.fault ∧ t.intake = s.intake ∧ t.events = s.events ∧ t.pending = s.pending)
    ∧ (e.toNat ≤ 31 → ∃ t, exec (.revoke 0 tag e) s = .next t
      ∧ PostedLast t (plainCompletion 0 codeRevoke tag .done)
      ∧ tget t.grants e.toNat = none ∧ (∀ j, j ≠ e.toNat → tget t.grants j = tget s.grants j)
      ∧ CellsJudgedByGrants s t e.toNat ∧ OnlyConditionsChange s t ∧ t.domains = (restartLease s 0).domains
      ∧ t.run = s.run ∧ t.holds = s.holds ∧ t.fault = s.fault ∧ t.intake = s.intake ∧ t.events = s.events ∧ t.pending = s.pending)
    ∧ (31 < e.toNat → ∃ t, exec (.revoke 0 tag e) s = .next t
      ∧ PostedLast t (plainCompletion 0 codeRevoke tag .badCommand) ∧ TablesKept s t 0)
    ∧ (31 < e.toNat ∨ grantContents rec = none → ∃ t, exec (.grant 0 tag e rec) s = .next t
      ∧ PostedLast t (plainCompletion 0 codeGrant tag .badCommand) ∧ TablesKept s t 0)

/-- A SET_DOMAIN of D0 (R128, R129, R130, R148): weight and lease period are written; enable no on an enabled target disables it; enable yes
on a target that is disabled or HALTED and holds no waiter enables it; enable yes on an ENABLED target changes its lease alone, and enable
no on a disabled one no more than weight and period. A target of D0 or above D7, a weight outside 1..8 and an enable byte above 1 complete
BAD_COMMAND (R193). No other domain record changes but for D0's lease restart. -/
def Obligations.SetDomainDisablesAndEnables : Prop :=
  (∀ (s : State) (tag : BitVec 16) (target w p enable : Byte), Taking s 0 →
    (target.toNat = 0 ∨ 7 < target.toNat ∨ w.toNat < 1 ∨ 8 < w.toNat ∨ 1 < enable.toNat) →
    ∃ t, exec (.setDomain 0 tag target w p enable) s = .next t
      ∧ PostedLast t (plainCompletion 0 codeSetDomain tag .badCommand) ∧ TablesKept s t 0)
  ∧ ∀ (s : State) (tag : BitVec 16) (g : Domain) (w p : Byte), Taking s 0 → 1 ≤ w.toNat → w.toNat ≤ 8 → g ≠ 0 →
    ((domainAt s g).enabled = true → ∃ t, exec (.setDomain 0 tag (BitVec.ofNat 8 g.val) w p 0) s = .next t
      ∧ PostedLast t (plainCompletion 0 codeSetDomain tag .done)
      ∧ domainAt t g = { enabled := false, posture := none, weight := w.toNat, leasePeriod := p.toNat, lease := none }
      ∧ queueAt t g = { queueAt s g with state := .disabled, reservations := 0 }
      ∧ (∀ e, e ≠ g → domainAt t e = domainAt (restartLease s 0) e)
      ∧ cellsOf t g = [] ∧ (∀ e, e ≠ g → cellsOf t e = cellsOf s e)
      ∧ (∀ k w', tget t.waiters k = some w' → w'.domain ≠ g)
      ∧ recordsOf t (.queue g) = recordsOf s (.queue g)
      ∧ (∀ wr ∈ t.host.writes, wr.owner = .queue g → wr.live = false)
      ∧ (∀ f, t.intake.fetch = some f → f.domain = g → f.void = true)
      ∧ OnlyConditionsChange s t ∧ t.run = s.run ∧ t.holds = s.holds ∧ t.grants = s.grants ∧ t.fault = s.fault
      ∧ t.events = s.events ∧ t.pending = s.pending)
    ∧ ((domainAt s g).enabled = false ∨ (queueAt s g).state ≠ .enabled → (∀ e ∈ s.waiters, e.2.domain ≠ g) →
      ∃ t, exec (.setDomain 0 tag (BitVec.ofNat 8 g.val) w p 1) s = .next t
      ∧ PostedLast t (plainCompletion 0 codeSetDomain tag .done)
      ∧ domainAt t g = { enabled := true, posture := some .active, weight := w.toNat, leasePeriod := p.toNat,
                         lease := fullLease p.toNat }
      ∧ queueAt t g = { queueAt s g with sqTail := 0, sqHead := 0, cqTail := 0, cqHead := 0, cqPhase := true,
                                         reservations := 0, armed := true, state := .enabled }
      ∧ (∀ e, e ≠ g → domainAt t e = domainAt (restartLease s 0) e)
      ∧ t.votes = s.votes ∧ OnlyConditionsChange s t ∧ DomainFrame s t)
    ∧ ((domainAt s g).enabled = true → (queueAt s g).state = .enabled →
      ∃ t, exec (.setDomain 0 tag (BitVec.ofNat 8 g.val) w p 1) s = .next t
      ∧ PostedLast t (plainCompletion 0 codeSetDomain tag .done)
      ∧ (domainAt t g).enabled = true ∧ (domainAt t g).posture = (domainAt s g).posture
      ∧ (domainAt t g).weight = w.toNat ∧ (domainAt t g).leasePeriod = p.toNat
      ∧ ((domainAt s g).posture = some .active ∨ (domainAt s g).posture = some .drowsy →
          (domainAt t g).lease = fullLease p.toNat)
      ∧ ((domainAt s g).posture = some .detached → (domainAt t g).lease = (domainAt s g).lease)
      ∧ queueAt t g = queueAt s g
      ∧ (∀ e, e ≠ g → domainAt t e = domainAt (restartLease s 0) e) ∧ TablesStand s t)
    ∧ ((domainAt s g).enabled = false →
      ∃ t, exec (.setDomain 0 tag (BitVec.ofNat 8 g.val) w p 0) s = .next t
      ∧ PostedLast t (plainCompletion 0 codeSetDomain tag .done)
      ∧ domainAt t g = { domainAt s g with weight := w.toNat, leasePeriod := p.toNat } ∧ queueAt t g = queueAt s g
      ∧ (∀ e, e ≠ g → domainAt t e = domainAt (restartLease s 0) e) ∧ TablesStand s t)

/-! ## Commands: supervision -/

/-- A CLEAR_FAULT of D0 on a LOCKED resource off the Cut List (R91, R149): CLEARING, a clear record with attempts used 0, one CLEAR request,
a CLEAR waiter, no completion; the level stays. Otherwise the first case of R149's table that applies, and nothing changes. -/
def Obligations.ClearFaultOutcomes : Prop :=
  ∀ (s : State) (tag deadline : BitVec 16) (r : Byte), Taking s 0 →
    (∀ x, resourceAt s r.toNat = some x → x.cond = .locked → onCutList s r.toNat = false → isDetached s 0 = false →
      entryFreeAfter s [] = true →
      ∃ t, exec (.clearFault 0 tag deadline r) s = .next t
        ∧ resourceAt t r.toNat = some { x with cond := .clearing } ∧ OtherResourcesKept s t r.toNat
        ∧ t.fault = { s.fault with clears := tset s.fault.clears r.toNat 0 }
        ∧ t.link = { s.link with requests := s.link.requests ++ [{ requester := .clear r.toNat, resource := r.toNat }] }
        ∧ WaiterCreated s t { domain := 0, tag := tag, body := .clear r.toNat, deadline := deadlineTimer deadline }
        ∧ t.domains = (restartLease s 0).domains ∧ (∀ e, e ≠ 0 → queueAt t e = queueAt s e)
        ∧ t.host = s.host ∧ t.run = s.run ∧ t.votes = s.votes ∧ t.holds = s.holds ∧ t.grants = s.grants ∧ t.steps = s.steps
        ∧ t.intake = s.intake ∧ t.events = s.events ∧ t.pending = s.pending)
    ∧ (∀ status,
        (resourceAt s r.toNat = none ∧ status = .badResource
          ∨ (∃ x, resourceAt s r.toNat = some x ∧ (x.cond ≠ .locked ∨ onCutList s r.toNat = true)) ∧ status = .inUse
          ∨ (∃ x, resourceAt s r.toNat = some x ∧ x.cond = .locked) ∧ onCutList s r.toNat = false
            ∧ isDetached s 0 = true ∧ status = .detached
          ∨ (∃ x, resourceAt s r.toNat = some x ∧ x.cond = .locked) ∧ onCutList s r.toNat = false
            ∧ isDetached s 0 = false ∧ entryFreeAfter s [] = false ∧ status = .waitersFull) →
      ∃ t, exec (.clearFault 0 tag deadline r) s = .next t
        ∧ PostedLast t (plainCompletion 0 codeClearFault tag status) ∧ TablesKept s t 0)

/-- A CLEAR_SAFE of D0 (R90, R150): with SAFE set, every level OFF, no step and an empty Cut List, SAFE is left, SAFE_LEFT is handed with
the trip cause, the cause becomes none and each resting resource whose target changed is judged against its new target; with SAFE clear it
completes DONE, and else IN_USE, changing nothing. -/
def Obligations.ClearSafeOutcomes : Prop :=
  ∀ (s : State) (tag : BitVec 16), Taking s 0 →
    (s.fault.safe = true → (∀ e ∈ s.resources, e.2.level = .off) → s.steps = [] → s.fault.cutList = [] →
      ∃ t, exec (.clearSafe 0 tag) s = .next t
        ∧ PostedLast t (plainCompletion 0 codeClearSafe tag .done)
        ∧ t.fault = { s.fault with safe := false, tripCause := none }
        ∧ EventHanded s t (safeLeftEvent s.fault.tripCause)
        ∧ (∀ r x g, resourceAt t r = some x → x.cond = .steady ∨ x.cond = .waiting → x.alignOwed = false →
            targetOf t r = some g → targetOf t r ≠ targetOf s r → x.cond = if meetsTarget x g then .steady else .waiting)
        ∧ (∀ k w, tget t.waiters k = some w → tget s.waiters k = some w)
        ∧ t.domains = (restartLease s 0).domains ∧ OnlyConditionsChange s t ∧ t.run = s.run ∧ t.votes = s.votes ∧ t.holds = s.holds
        ∧ t.grants = s.grants
        ∧ t.intake = s.intake ∧ t.pending = s.pending)
    ∧ (∀ status,
        (s.fault.safe = false ∧ status = .done
          ∨ s.fault.safe = true ∧ ((∃ e ∈ s.resources, e.2.level ≠ .off) ∨ s.steps ≠ [] ∨ s.fault.cutList ≠ [])
            ∧ status = .inUse) →
      ∃ t, exec (.clearSafe 0 tag) s = .next t ∧ PostedLast t (plainCompletion 0 codeClearSafe tag status) ∧ TablesKept s t 0)

/-- A RELEASE_HOLD of D0 (R27, R144): the hold cell of the resource, or for 0xFF every hold cell, becomes absent; domain cells stand and the
command completes DONE. An absent resource completes BAD_RESOURCE. -/
def Obligations.ReleaseHoldEmptiesHoldCells : Prop :=
  ∀ (s : State) (tag : BitVec 16) (r : Byte), Taking s 0 →
    (r = 0xFF ∨ (resourceAt s r.toNat).isSome = true → ∃ t, exec (.releaseHold 0 tag r) s = .next t
      ∧ PostedLast t (plainCompletion 0 codeReleaseHold tag .done)
      ∧ (∀ k, tget t.holds k = if r = 0xFF ∨ k = r.toNat then none else tget s.holds k)
      ∧ t.votes = s.votes ∧ OnlyConditionsChange s t ∧ t.domains = (restartLease s 0).domains ∧ t.run = s.run ∧ t.grants = s.grants
      ∧ t.fault = s.fault
      ∧ t.intake = s.intake ∧ t.events = s.events ∧ t.pending = s.pending)
    ∧ (r ≠ 0xFF → resourceAt s r.toNat = none → ∃ t, exec (.releaseHold 0 tag r) s = .next t
      ∧ PostedLast t (plainCompletion 0 codeReleaseHold tag .badResource) ∧ TablesKept s t 0)

/-- A CONFIG_RESOURCE of D0 (R23, R145, R146): an accepted configuration stands whole in the slot at level OFF, STEADY or WAITING by its
target, its fault fields and sample cleared, and the QUERY waiters that cover it complete FAULTED (R111); an accepted removal leaves the
slot absent, and one of an absent slot changes nothing. A record whose present bit is clear carries no configuration (R193). A slot above 63
completes BAD_RESOURCE, one that fails check 1 or 3 IN_USE, and a configuration that fails check 2 BAD_COMMAND, with no table changed. -/
def Obligations.ConfigResourceChangesTheSlotWhole : Prop :=
  ∀ (s : State) (tag : BitVec 16) (i : Byte) (rec : BitVec 128), Taking s 0 →
    let turnedAway : Bool → Status → Prop := fun carried status =>
      ∃ t, exec (.configResource 0 tag i carried rec) s = .next t
        ∧ PostedLast t (plainCompletion 0 codeConfigResource tag status) ∧ TablesKept s t 0
    (63 < i.toNat → ∀ carried, turnedAway carried .badResource)
    ∧ (i.toNat ≤ 63 →
      (∀ cfg, (∀ x, resourceAt s i.toNat = some x → slotFree s i.toNat x = true ∧ (x.cfg.kind = cfg.kind ∨ slotUnused s i.toNat = true)) →
        recordPresent rec = true → configOf rec = some cfg → configAccepted (presentConfigs s) i.toNat cfg = true →
        ∃ t, exec (.configResource 0 tag i true rec) s = .next t
          ∧ PostedLast t (plainCompletion 0 codeConfigResource tag .done)
          ∧ resourceAt t i.toNat = some
              { cfg := cfg, level := .off, setpoint := none, alignOwed := false, lastFault := none, faultCount := 0, lastSample := none,
                cond := if targetLevel t i.toNat = .off then .steady else .waiting }
          ∧ (∀ k, k ≠ i.toNat → (resourceAt t k).map withoutCond = (resourceAt s k).map withoutCond)
          ∧ (∀ k w, tget t.waiters k = some w → isQuery w = true → covers w i.toNat = false)
          ∧ (∀ k w, tget s.waiters k = some w → isQuery w = true → covers w i.toNat = true → EndedWith s t w .faulted)
          ∧ t.votes = s.votes ∧ t.domains = (restartLease s 0).domains ∧ DomainFrame s t)
      ∧ (∀ x carried, resourceAt s i.toNat = some x → slotFree s i.toNat x = true → slotUnused s i.toNat = true →
        carried = false ∨ recordPresent rec = false →
        ∃ t, exec (.configResource 0 tag i carried rec) s = .next t
          ∧ PostedLast t (plainCompletion 0 codeConfigResource tag .done)
          ∧ resourceAt t i.toNat = none
          ∧ (∀ k, k ≠ i.toNat → (resourceAt t k).map withoutCond = (resourceAt s k).map withoutCond)
          ∧ (∀ k w, tget t.waiters k = some w → isQuery w = true → covers w i.toNat = false)
          ∧ (∀ k w, tget s.waiters k = some w → isQuery w = true → covers w i.toNat = true → EndedWith s t w .faulted)
          ∧ t.votes = s.votes ∧ t.domains = (restartLease s 0).domains ∧ DomainFrame s t)
      ∧ (∀ carried, resourceAt s i.toNat = none → carried = false ∨ recordPresent rec = false → turnedAway carried .done)
      ∧ (∀ x carried, resourceAt s i.toNat = some x → slotFree s i.toNat x = false → turnedAway carried .inUse)
      ∧ ((∀ x, resourceAt s i.toNat = some x → slotFree s i.toNat x = true) → recordPresent rec = true →
        (∀ cfg, configOf rec = some cfg → configAccepted (presentConfigs s) i.toNat cfg = false) → turnedAway true .badCommand)
      ∧ (∀ x carried, resourceAt s i.toNat = some x → slotFree s i.toNat x = true → slotUnused s i.toNat = false →
        (carried = false ∨ recordPresent rec = false
          ∨ ∃ cfg, configOf rec = some cfg ∧ configAccepted (presentConfigs s) i.toNat cfg = true ∧ x.cfg.kind ≠ cfg.kind) →
        turnedAway carried .inUse))

/-! ## Rings -/

/-- A NOTIFY of kind SQ_TAIL (R168, R169): an index below the SQ size becomes the tail and the pending count is taken modulo the size, a
fetch in flight untouched; a larger one halts the queue with BAD_TAIL, the tail unchanged; outside RUNNING or on a queue that is not ENABLED
nothing happens. -/
def Obligations.SqTailMovesOrHalts : Prop :=
  ∀ (s : State) (d : Domain) (i : Byte),
    (∀ desc, s.run.state = .running → (queueAt s d).state = .enabled → (queueAt s d).desc = some desc →
      (i.toNat < desc.sqSize → ∃ t, exec (.sqTail d i) s = .next t
        ∧ t = setQueue s d { queueAt s d with sqTail := i.toNat }
        ∧ pendingCount (queueAt t d) = (i.toNat + desc.sqSize - (queueAt s d).sqHead) % desc.sqSize
        ∧ (intakeEligible t d = true ↔ pendingCount (queueAt t d) ≠ 0
            ∧ writtenCount (queueAt s d) + (queueAt s d).reservations + 1 ≤ desc.cqSize - 1)
        ∧ t.intake = s.intake)
      ∧ (desc.sqSize ≤ i.toNat → ∃ t, exec (.sqTail d i) s = .next t
        ∧ queueAt t d = { queueAt s d with state := .halted, reservations := 0 }
        ∧ (∀ k w, tget t.waiters k = some w → w.domain ≠ d) ∧ recordsOf t (.queue d) = recordsOf s (.queue d)
        ∧ (∀ f, t.intake.fetch = some f → f.domain = d → f.void = true)
        ∧ EventHanded s t (plainEvent .queueError d.val 1) ∧ t.votes = s.votes ∧ t.domains = s.domains
        ∧ t.resources = s.resources ∧ t.run = s.run))
    ∧ (s.run.state ≠ .running ∨ (queueAt s d).state ≠ .enabled → exec (.sqTail d i) s = .next s)

/-- A NOTIFY of kind CQ_HEAD (R168, R170): a good head, reached from the old head at or before the tail, releases the entries between,
re-arms notification and sends nothing; any other halts the queue with BAD_HEAD, head and arm flag unchanged. -/
def Obligations.CqHeadReleasesOrHalts : Prop :=
  ∀ (s : State) (d : Domain) (h : Byte),
    (∀ desc, s.run.state = .running → (queueAt s d).state = .enabled → (queueAt s d).desc = some desc →
      (queueAt s d).cqTail < desc.cqSize → (queueAt s d).cqHead < desc.cqSize →
      (h.toNat < desc.cqSize → (h.toNat + desc.cqSize - (queueAt s d).cqHead) % desc.cqSize ≤ writtenCount (queueAt s d) →
        ∃ t, exec (.cqHead d h) s = .next t
          ∧ t = setQueue s d { queueAt s d with cqHead := h.toNat, armed := true }
          ∧ writtenCount (queueAt t d) + (h.toNat + desc.cqSize - (queueAt s d).cqHead) % desc.cqSize = writtenCount (queueAt s d)
          ∧ t.host = s.host)
      ∧ (desc.cqSize ≤ h.toNat ∨ writtenCount (queueAt s d) < (h.toNat + desc.cqSize - (queueAt s d).cqHead) % desc.cqSize →
        ∃ t, exec (.cqHead d h) s = .next t
          ∧ queueAt t d = { queueAt s d with state := .halted, reservations := 0 }
          ∧ (∀ k w, tget t.waiters k = some w → w.domain ≠ d) ∧ recordsOf t (.queue d) = recordsOf s (.queue d)
          ∧ (∀ f, t.intake.fetch = some f → f.domain = d → f.void = true)
          ∧ EventHanded s t (plainEvent .queueError d.val 2) ∧ t.votes = s.votes ∧ t.domains = s.domains
          ∧ t.resources = s.resources ∧ t.run = s.run))
    ∧ (s.run.state ≠ .running ∨ (queueAt s d).state ≠ .enabled → exec (.cqHead d h) s = .next s)

/-- A NOTIFY of kind EVENT_HEAD (R168, R179, R180): a good head releases entries and re-arms, sending nothing; a bad one disables the ring,
its indices, phase and arm flag standing and no record written; on a DISABLED ring or outside RUNNING it is ignored. -/
def Obligations.EventHeadReleasesOrDisables : Prop :=
  ∀ (s : State) (h : Byte),
    (∀ desc, s.run.state = .running → s.events.enabled = true → s.events.desc = some desc →
      (h.toNat < desc.size → (h.toNat + desc.size - s.events.head) % desc.size ≤ (s.events.tail + desc.size - s.events.head) % desc.size →
        exec (.eventHead h) s = .next (setEvents s { s.events with head := h.toNat, armed := true }))
      ∧ (desc.size ≤ h.toNat
          ∨ (s.events.tail + desc.size - s.events.head) % desc.size < (h.toNat + desc.size - s.events.head) % desc.size →
        ∃ t, exec (.eventHead h) s = .next t ∧ t.events = { s.events with enabled := false }
          ∧ recordsOf t .events = recordsOf s .events ∧ (∀ w ∈ t.host.writes, w.owner = .events → w.live = false)
          ∧ t = setHost (setEvents s t.events) t.host))
    ∧ (s.run.state ≠ .running ∨ s.events.enabled = false → exec (.eventHead h) s = .next s)

/-- An intake grant (R172, R173): the current domain while it is eligible and its turn count is below its weight, else the first eligible
domain after it in cyclic order, ending with itself, with turn count 1; the fetch record holds the domain and its SQ head, and the 32-byte
read asked is at SQ base plus 32 times the head (R165), which stands in the record (the model's, entry 10). Hardware reset, a soft reset in
STOPPED and a successful load set the current domain to D0 and the turn count to 0. -/
def Obligations.IntakeGrantIsWeightedRoundRobin : Prop :=
  ∀ s : State,
    (∀ desc, s.intake.fetch = none → intakeEligible s s.intake.current = true →
      s.intake.turn < (domainAt s s.intake.current).weight → (queueAt s s.intake.current).desc = some desc →
      exec .intakeGrant s = .next (setIntake s
        { current := s.intake.current, turn := s.intake.turn + 1
          fetch := some { domain := s.intake.current, index := (queueAt s s.intake.current).sqHead
                          addr := desc.sqBase + BitVec.ofNat 64 (32 * (queueAt s s.intake.current).sqHead), void := false } }))
    ∧ (∀ n desc, s.intake.fetch = none →
      intakeEligible s s.intake.current = false ∨ (domainAt s s.intake.current).weight ≤ s.intake.turn →
      1 ≤ n → n ≤ 8 → intakeEligible s (Fin.ofNat 8 (s.intake.current.val + n)) = true →
      (∀ m, 1 ≤ m → m < n → intakeEligible s (Fin.ofNat 8 (s.intake.current.val + m)) = false) →
      (queueAt s (Fin.ofNat 8 (s.intake.current.val + n))).desc = some desc →
      exec .intakeGrant s = .next (setIntake s
        { current := Fin.ofNat 8 (s.intake.current.val + n), turn := 1
          fetch := some { domain := Fin.ofNat 8 (s.intake.current.val + n)
                          index := (queueAt s (Fin.ofNat 8 (s.intake.current.val + n))).sqHead
                          addr := desc.sqBase + BitVec.ofNat 64 (32 * (queueAt s (Fin.ofNat 8 (s.intake.current.val + n))).sqHead)
                          void := false } }))
    ∧ (∀ d, intakeEligible s d = true → (queueAt s d).desc.isSome = true)
    ∧ (∀ c, (c = .hardwareReset ∨ (∃ run, c = .softReset run) ∧ s.run.state = .stopped
          ∨ ∃ k body addr, c = .loadBodyData k body ∧ s.host.loadReads[k]? = some { part := .body, addr := addr, live := true }
            ∧ bodyError s.run.loadHeader body = none) →
      ∃ t, exec c s = .next t ∧ t.intake.current = 0 ∧ t.intake.turn = 0)

/-- Fetched data (R173): the head advances by 1, the engine becomes idle, and the command of the entry is taken as its row takes it (11.2);
a code that is no command code completes BAD_COMMAND and echoes the code (R132, R193); data of a void fetch are discarded. That a command
row is the Command Unit's taking of a command that the Queue Engine can hand over is DEDUCED (entry 4). -/
def Obligations.FetchedEntryIsTakenAsItsRow : Prop :=
  ∀ (s : State) (f : Fetch) (desc : RingDescriptor) (e : BitVec 256), s.intake.fetch = some f →
    (f.void = true → exec (.fetchData e) s = .next (setIntake s { s.intake with fetch := none }))
    ∧ (f.void = false → (queueAt s f.domain).desc = some desc →
      let u := setQueue (setIntake s { s.intake with fetch := none }) f.domain
        { queueAt s f.domain with sqHead := if (queueAt s f.domain).sqHead + 1 < desc.sqSize then (queueAt s f.domain).sqHead + 1 else 0 }
      canHandOver u f.domain = true →
      (∀ row, entryRow f.domain e = some row → exec (.fetchData e) s = exec row u)
      ∧ (entryRow f.domain e = none → s.run.state = .running → ∃ t, exec (.fetchData e) s = .next t
          ∧ PostedLast t (plainCompletion f.domain (byteOf e 0) (e.extractLsb' 16 16) .badCommand) ∧ TablesKept u t f.domain))

/-- A bus error on a fetch (R173, R176, R162): the engine becomes idle and the queue halts with BUS_ERROR, its head unchanged, its waiters
discarded without completion and its reservations 0, votes, postures and leases standing; one of a void fetch only makes the engine idle. -/
def Obligations.FetchBusErrorHaltsTheQueue : Prop :=
  ∀ (s : State) (f : Fetch), s.intake.fetch = some f →
    (f.void = true → exec .fetchBusError s = .next (setIntake s { s.intake with fetch := none }))
    ∧ (f.void = false → tsorted s.waiters = true → ∃ t, exec .fetchBusError s = .next t
      ∧ t.intake = { s.intake with fetch := none }
      ∧ queueAt t f.domain = { queueAt s f.domain with state := .halted, reservations := 0 }
      ∧ (∀ d, d ≠ f.domain → queueAt t d = queueAt s d)
      ∧ (∀ k, tget t.waiters k = (tget s.waiters k).filter fun w => w.domain != f.domain)
      ∧ recordsOf t (.queue f.domain) = recordsOf s (.queue f.domain)
      ∧ EventHanded s t (plainEvent .queueError f.domain.val 3)
      ∧ t.run = s.run ∧ t.resources = s.resources ∧ t.votes = s.votes ∧ t.holds = s.holds ∧ t.domains = s.domains
      ∧ t.grants = s.grants ∧ t.steps = s.steps ∧ t.fault = s.fault ∧ t.pending = s.pending)

/-- The outcome of an outstanding write (R175, R180): it is outstanding no more; a bus error that still counts halts the queue with
BUS_ERROR, or disables the event ring; any other outcome does nothing else. An outcome names its write by its place among those outstanding
(the model's choice, entry 5). -/
def Obligations.WriteOutcomes : Prop :=
  ∀ (s : State) (k : Nat) (w : HostWrite) (bad : Bool), s.host.writes[k]? = some w →
    (∀ d, w.owner = .queue d →
      ((bad && w.live) = false → exec (.queueWriteOutcome k bad) s = .next (setHost s { s.host with writes := s.host.writes.eraseIdx k }))
      ∧ (w.live = true → ∃ t, exec (.queueWriteOutcome k true) s = .next t
        ∧ (queueAt t d).state = .halted ∧ (queueAt t d).reservations = 0
        ∧ (∀ k w', tget t.waiters k = some w' → w'.domain ≠ d)
        ∧ EventHanded s t (plainEvent .queueError d.val 3)
        ∧ (∀ w' ∈ t.host.writes, w'.owner = .queue d → w'.live = false)
        ∧ t.votes = s.votes ∧ t.domains = s.domains ∧ t.resources = s.resources ∧ t.fault = s.fault ∧ t.run = s.run))
    ∧ (w.owner = .events →
      ((bad && w.live) = false → exec (.eventWriteOutcome k bad) s = .next (setHost s { s.host with writes := s.host.writes.eraseIdx k }))
      ∧ (w.live = true → ∃ t, exec (.eventWriteOutcome k true) s = .next t
        ∧ t.events = { s.events with enabled := false } ∧ (∀ w' ∈ t.host.writes, w'.owner = .events → w'.live = false)
        ∧ t = setHost (setEvents s t.events) t.host))

/-- Posting a completion (R174, R167): on an ENABLED queue the record is asked at CQ base plus 16 times the tail with the phase as it
stands, then the message if armed; the tail advances, the phase flips on a wrap, the arm flag clears and a waiter's reservation is used. On
any other queue the completion is discarded with its reservation. Writes asked stand in host.writes (the model's, entry 10). -/
def Obligations.PostingACompletion : Prop :=
  ∀ (s : State) (held : Bool) (c : Completion) (desc : RingDescriptor),
    ((queueAt s c.domain).state = .enabled → (queueAt s c.domain).desc = some desc →
      (postCompletion s held c).host.loadReads = s.host.loadReads
      ∧ (postCompletion s held c).host.writes = s.host.writes
        ++ [{ owner := .queue c.domain, addr := desc.cqBase + BitVec.ofNat 64 (16 * (queueAt s c.domain).cqTail),
              data := completionRecord c (queueAt s c.domain).cqPhase, live := true }]
        ++ (if (queueAt s c.domain).armed then
              [{ owner := .queue c.domain, addr := desc.msgAddr, data := bytesLE 4 desc.msgData.toNat, live := true }] else [])
      ∧ queueAt (postCompletion s held c) c.domain
        = { queueAt s c.domain with
            cqTail := if (queueAt s c.domain).cqTail + 1 < desc.cqSize then (queueAt s c.domain).cqTail + 1 else 0
            cqPhase := if (queueAt s c.domain).cqTail + 1 < desc.cqSize then (queueAt s c.domain).cqPhase else !(queueAt s c.domain).cqPhase
            reservations := if held then (queueAt s c.domain).reservations - 1 else (queueAt s c.domain).reservations
            armed := false }
      ∧ ∀ d, d ≠ c.domain → queueAt (postCompletion s held c) d = queueAt s d)
    ∧ ((queueAt s c.domain).state ≠ .enabled → (postCompletion s held c).host = s.host
      ∧ queueAt (postCompletion s held c) c.domain = { queueAt s c.domain with
          reservations := if held then (queueAt s c.domain).reservations - 1 else (queueAt s c.domain).reservations })

/-- Handing an event (R178, R194): on an ENABLED ring that is not full the 16-byte record is asked at the tail with phase, dropped count and
run time, then the message if armed; the tail advances, the phase flips on a wrap, the dropped count becomes 0 and the arm flag clears. On a
full or DISABLED ring the dropped count rises by 1, at most to 65,535, and nothing is written. Writes asked stand in host.writes (the
model's, entry 10). -/
def Obligations.HandingAnEvent : Prop :=
  ∀ (s : State) (e : Event) (desc : EventDescriptor),
    (s.events.enabled = true → s.events.desc = some desc →
      (s.events.tail + desc.size - s.events.head) % desc.size ≠ desc.size - 1 →
      (handEvent s e).host.writes = s.host.writes
        ++ [{ owner := .events, addr := desc.base + BitVec.ofNat 64 (16 * s.events.tail),
              data := eventRecord e s.events.phase s.events.dropped s.run.runTime, live := true }]
        ++ (if s.events.armed then [{ owner := .events, addr := desc.msgAddr, data := bytesLE 4 desc.msgData.toNat, live := true }] else [])
      ∧ (eventRecord e s.events.phase s.events.dropped s.run.runTime).length = 16
      ∧ (handEvent s e).events
        = { s.events with
            tail := if s.events.tail + 1 < desc.size then s.events.tail + 1 else 0
            phase := if s.events.tail + 1 < desc.size then s.events.phase else !s.events.phase
            dropped := 0, armed := false })
    ∧ (s.events.enabled = false
        ∨ s.events.desc = some desc ∧ (s.events.tail + desc.size - s.events.head) % desc.size = desc.size - 1 →
      handEvent s e = setEvents s { s.events with dropped := min 65535 (s.events.dropped + 1) })

/-! ## Sequencer -/

/-- An allocation (R56, R57): the lowest FREE slot gets the eligible move of the lowest class and, in it, of the lowest resource number, as
a step in AWAITING_LINK with no retry used and its request the first placed; its resource is STEPPING with no level or setpoint changed;
steps already placed stand. With no eligible move nothing happens (the model's choice, entry 3). -/
def Obligations.AllocationPlacesTheFirstMove : Prop :=
  ∀ (s : State) (k : Nat), tsorted s.resources = true →
    (k < 4 → stepAt s k = none → (∀ j, j < k → (stepAt s j).isSome = true) → eligibleMoves s ≠ [] →
      ∃ t r x m rest, exec .allocation s = .next t
        ∧ (r, x, m) ∈ eligibleMoves s
        ∧ (∀ e ∈ eligibleMoves s, moveClass x m < moveClass e.2.1 e.2.2 ∨ moveClass x m = moveClass e.2.1 e.2.2 ∧ r ≤ e.1)
        ∧ stepAt t k = some { resource := r, direction := m.direction, purpose := m.purpose,
                              origin := { level := x.level, setpoint := x.setpoint }, goal := m.goal, retries := 0, early := false,
                              state := .awaitingLink }
        ∧ (resourceAt t r).map Resource.cond = some .stepping
        ∧ t.link.requests = s.link.requests ++ { requester := .step k, resource := r } :: rest
        ∧ (∀ j st, stepAt s j = some st → stepAt t j = some st)
        ∧ OnlyConditionsChange s t ∧ t.run = s.run ∧ t.host = s.host ∧ t.votes = s.votes ∧ t.holds = s.holds ∧ t.domains = s.domains
        ∧ t.grants = s.grants ∧ t.fault = s.fault ∧ t.waiters = s.waiters ∧ t.queues = s.queues ∧ t.events = s.events)
    ∧ (eligibleMoves s = [] → exec .allocation s = .next s)

/-- A step fails when its settle timer expires (R61, NO_SETTLE), and when its last allowed attempt ends in a NAK or a timeout (R62, REFUSED
or NO_RESPONSE): the step leaves its slot (R63), its resource is LOCKED at OFF on the Cut List with the fault recorded (R75, R77, R79), no
waiter but a CLEAR waiter covers it, SAFE is entered when the policy is TRIP (R87), and where it is not the FAULT event carries the action
LOCK and the NAK reason (R76); the waiters covering it complete FAULTED. An expiry is taken whatever its timer's count (the model's choice,
entry 2). -/
def Obligations.StepsThatFailLockTheirResource : Prop :=
  ∀ (s : State) (k : Nat) (st : Step) (x : Resource) (c : Instr) (kind : FaultKind) (nak : Nat),
    stepAt s k = some st → resourceAt s st.resource = some x → x.cond = .stepping →
    (c = .settleTimeout k ∧ (∃ n, st.state = .settling n) ∧ kind = .noSettle ∧ nak = 0
      ∨ ∃ tr, s.link.transaction = some tr ∧ tr.requester = some (.step k) ∧ x.cfg.retryLimit ≤ st.retries
        ∧ (c = .responseTimeout ∧ kind = .noResponse ∧ nak = 0
          ∨ ∃ frame, c = .answer frame ∧ answerOf frame = some (tr.endpoint, tr.channel, .nak nak) ∧ kind = .refused)) →
    ∃ t, exec c s = .next t
      ∧ stepAt t k = none ∧ hasStep t st.resource = false
      ∧ resourceAt t st.resource = some { x with
          level := .off, setpoint := none, cond := .locked, alignOwed := false
          lastFault := some kind, faultCount := min 255 (x.faultCount + 1) }
      ∧ onCutList t st.resource = true
      ∧ t.fault.safe = (s.fault.safe || x.cfg.policy == .trip)
      ∧ (s.fault.safe = false → x.cfg.policy = .trip → t.fault.tripCause = some { resource := st.resource, kind := kind })
      ∧ (t.fault.safe = s.fault.safe → EventHanded s t
          { kind := .fault, subject := st.resource, detail := faultKindCode kind, action := 1, flags := 0, nak := nak, endpoint := 0
            channel := 0 })
      ∧ (s.fault.safe = false → x.cfg.policy = .trip → EventHanded (handEvent s
          { kind := .fault, subject := st.resource, detail := faultKindCode kind, action := 2, flags := 0, nak := nak, endpoint := 0
            channel := 0 }) t (plainEvent .safeEntered st.resource (faultKindCode kind)))
      ∧ (∀ j w, tget t.waiters j = some w → covers w st.resource = true → isClear w = true)
      ∧ (∀ j w, tget s.waiters j = some w → covers w st.resource = true → isClear w = false → EndedWith s t w .faulted)
      ∧ t.run = s.run ∧ t.votes = s.votes ∧ t.holds = s.holds ∧ t.domains = s.domains ∧ t.grants = s.grants ∧ t.intake = s.intake
      ∧ t.pending = s.pending

/-- The hold timer of a step in HOLDING expires (R64, R46): the slot is FREE, an ALIGN step's resource owes alignment no more, the condition
is judged by R20 against the target of the moment and reported, the satisfied waiters covering it completing SATISFIED (R65, R153 to R155),
no other resource and no target changes, and every other step stands. The expiry is taken whatever the count (the model's choice, entry 2). -/
def Obligations.HoldExpiryEndsTheStep : Prop :=
  ∀ (s : State) (k : Nat) (st : Step) (x : Resource) (g : Setting) (n : Nat),
    stepAt s k = some st → st.state = .holding n → resourceAt s st.resource = some x → x.cond = .stepping →
    targetOf s st.resource = some g →
    ∃ t y, exec (.holdExpiry k) s = .next t
      ∧ stepAt t k = none ∧ (∀ j, j ≠ k → stepAt t j = stepAt s j)
      ∧ resourceAt t st.resource = some y
      ∧ y.alignOwed = (x.alignOwed && st.purpose != .align)
      ∧ y = { x with alignOwed := y.alignOwed, cond := if !y.alignOwed && meetsTarget x g then .steady else .waiting }
      ∧ (tsorted s.waiters = true → Reported s t st.resource)
      ∧ OtherResourcesKept s t st.resource ∧ (∀ r, targetOf t r = targetOf s r)
      ∧ t.run = s.run ∧ t.votes = s.votes ∧ t.holds = s.holds ∧ t.domains = s.domains ∧ t.grants = s.grants ∧ t.fault = s.fault
      ∧ t.intake = s.intake ∧ t.events = s.events ∧ t.pending = s.pending

/-! ## Rail Link -/

/-- A grant (R101, R95): with the link IDLE the oldest request of the highest class is removed and its frame sent to the endpoint channel
its slot carries, the record filled and the response timer started at 200 µs; a step enters ISSUED, and a NORMAL LOWER records its to values
at its first issue (R58). While the link is BUSY or no request is held, nothing happens (the model's choice, entry 3). The frame sent is
kept in the record (the model's, entry 11). -/
def Obligations.LinkGrantServesTheHighestClass : Prop :=
  ∀ (s : State) (older younger : List Request) (q : Request) (x : Resource),
    (s.link.transaction = none → s.link.requests = older ++ q :: younger →
      (∀ p ∈ older, classRank (classOf q.requester) < classRank (classOf p.requester)) →
      (∀ p ∈ younger, classRank (classOf q.requester) ≤ classRank (classOf p.requester)) →
      resourceAt s q.resource = some x →
      (∀ k st, q.requester = .step k → stepAt s k = some st → st.resource = q.resource →
        ∃ t, exec .linkGrant s = .next t
          ∧ t.link = { s.link with
              requests := s.link.requests.filter fun p => p.requester != q.requester
              transaction := some { kind := .set, endpoint := x.cfg.endpoint, channel := x.cfg.channel, cls := .step,
                                    requester := some q.requester, resource := q.resource, timer := 20, voided := false,
                                    frame := setFrame x.cfg.endpoint x.cfg.channel st.goal } }
          ∧ stepAt t k = some { st with state := .issued } ∧ (∀ j, j ≠ k → stepAt t j = stepAt s j)
          ∧ resourceAt t q.resource = some (if st.purpose = .normal ∧ st.direction = .lower ∧ st.retries = 0 then
              { x with level := st.goal.level, setpoint := st.goal.setpoint } else x)
          ∧ OtherResourcesKept s t q.resource ∧ t.waiters = s.waiters ∧ t.fault = s.fault ∧ t.votes = s.votes ∧ t.run = s.run)
      ∧ (∀ kind frame,
          (q.requester = .cutList ∧ kind = .set ∧ frame = setFrame x.cfg.endpoint x.cfg.channel { level := .off, setpoint := none }
            ∨ (∃ r, q.requester = .clear r) ∧ kind = .clear ∧ frame = clearFrame x.cfg.endpoint x.cfg.channel
            ∨ (∃ k, q.requester = .query k) ∧ kind = .sample ∧ frame = sampleFrame x.cfg.endpoint x.cfg.channel) →
        exec .linkGrant s = .next (setLink s { s.link with
          requests := s.link.requests.filter fun p => p.requester != q.requester
          transaction := some { kind := kind, endpoint := x.cfg.endpoint, channel := x.cfg.channel, cls := classOf q.requester,
                                requester := some q.requester, resource := q.resource, timer := 20, voided := false, frame := frame } })))
    ∧ (s.link.transaction ≠ none ∨ s.link.requests = [] → exec .linkGrant s = .next s)

/-- A valid ACK for a step in ISSUED (R59, R99): the link becomes IDLE; without early settled the step enters SETTLING at the resource's
settle limit; with it and a hold above 0 it enters HOLDING, and a NORMAL RAISE or SETPOINT step records its to values. -/
def Obligations.AckTakesTheStepOn : Prop :=
  ∀ (s : State) (tr : Transaction) (k : Nat) (st : Step) (x : Resource) (frame : List Byte),
    s.link.transaction = some tr → tr.kind = .set → tr.requester = some (.step k) → stepAt s k = some st →
    resourceAt s st.resource = some x → answerOf frame = some (tr.endpoint, tr.channel, .ack) →
    (st.early = false → exec (.answer frame) s = .next (setSteps (setLink s { s.link with transaction := none })
        (tset s.steps k { st with state := .settling (x.cfg.settleLimit * 5) })))
    ∧ (st.early = true → x.cfg.hold ≠ 0 → ∃ t, exec (.answer frame) s = .next t
      ∧ stepAt t k = some { st with state := .holding x.cfg.hold } ∧ (∀ j, j ≠ k → stepAt t j = stepAt s j)
      ∧ t.link = { s.link with transaction := none }
      ∧ resourceAt t st.resource = some (if st.purpose = .normal ∧ st.direction ≠ .lower then
          { x with level := st.goal.level, setpoint := st.goal.setpoint } else x)
      ∧ OtherResourcesKept s t st.resource ∧ t.waiters = s.waiters ∧ t.fault = s.fault ∧ t.host = s.host)

/-- The response timer expires, or an answer fails one of the tests of R99: the transaction ends as a timeout. After a timeout or a valid
NAK a step with a retry left goes back to AWAITING_LINK with one retry more, early settled clear and a new, youngest request (R62, R102).
One that rises under SAFE or STOPPING is withdrawn instead: a NORMAL step records its to values, an ALIGN step's resource owes alignment no
more, and R20 judges the resource against the target OFF. An answer while the link is IDLE is discarded, and no response timer expires then
(entries 2 and 3). -/
def Obligations.TimeoutsAndBadAnswers : Prop :=
  ∀ (s : State) (frame : List Byte),
    (∀ (tr : Transaction) (k : Nat) (st : Step) (x : Resource) (c : Instr), s.link.transaction = some tr →
      tr.requester = some (.step k) → stepAt s k = some st → resourceAt s st.resource = some x → st.retries < x.cfg.retryLimit →
      (c = .responseTimeout ∨ ∃ nak, c = .answer frame ∧ answerOf frame = some (tr.endpoint, tr.channel, .nak nak)) →
      (risesTowards st = false ∨ (s.fault.safe = false ∧ s.run.state ≠ .stopping) →
        exec c s = .next
          (setLink (setSteps s (tset s.steps k { st with state := .awaitingLink, retries := st.retries + 1, early := false }))
            { s.link with transaction := none, requests := s.link.requests ++ [{ requester := .step k, resource := st.resource }] }))
      ∧ (risesTowards st = true → s.fault.safe = true ∨ s.run.state = .stopping → x.cond = .stepping →
        ∃ t y, exec c s = .next t
          ∧ y = (if st.purpose = .normal then { x with level := st.goal.level, setpoint := st.goal.setpoint }
              else { x with alignOwed := false })
          ∧ resourceAt t st.resource = some { y with
              cond := if !y.alignOwed && meetsTarget y { level := .off, setpoint := none } then .steady else .waiting }
          ∧ OtherResourcesKept s t st.resource
          ∧ stepAt t k = none ∧ (∀ j, j ≠ k → stepAt t j = stepAt s j)
          ∧ t.link.transaction = none
          ∧ (∀ q ∈ t.link.requests, q ∈ s.link.requests ∧ q.requester ≠ .step k)
          ∧ (∀ q ∈ s.link.requests, q.requester ≠ .step k → (∀ j, q.requester ≠ .query j) → q ∈ t.link.requests)
          ∧ t.run = s.run ∧ t.votes = s.votes ∧ t.holds = s.holds ∧ t.domains = s.domains ∧ t.grants = s.grants ∧ t.fault = s.fault
          ∧ t.intake = s.intake ∧ t.events = s.events ∧ t.pending = s.pending))
    ∧ (∀ (tr : Transaction), s.link.transaction = some tr →
      (answerOf frame = none
        ∨ (∃ e c body, answerOf frame = some (e, c, body) ∧ (e ≠ tr.endpoint ∨ c ≠ tr.channel))
        ∨ (∃ e c, answerOf frame = some (e, c, .ack) ∧ tr.kind = .sample)
        ∨ (∃ e c reading, answerOf frame = some (e, c, .data reading) ∧ tr.kind ≠ .sample)) →
      exec (.answer frame) s = exec .responseTimeout s)
    ∧ (s.link.transaction = none → exec (.answer frame) s = .next s ∧ exec .responseTimeout s = .next s)

/-- The SET OFF of the front Cut List entry ends (R84, R85): acknowledged, the entry leaves and the next one places its URGENT request;
failed with a retry left, it requests again with one attempt more; failed for good, COLLAPSE_FAILED is handed and the entry leaves the same
way. A response timer expires here whatever its count (the model's choice, entry 2). -/
def Obligations.CutListGoesOnFromItsFront : Prop :=
  ∀ (s : State) (tr : Transaction) (e : CutEntry) (rest : List CutEntry) (x : Resource),
    s.link.transaction = some tr → tr.requester = some .cutList → tr.kind = .set → s.fault.cutList = e :: rest →
    resourceAt s e.resource = some x →
    let next := (rest.head?.map fun n => ({ requester := .cutList, resource := n.resource } : Request)).toList
    let left := setFault (setLink s { s.link with transaction := none, requests := s.link.requests ++ next }) { s.fault with cutList := rest }
    (∀ frame, answerOf frame = some (tr.endpoint, tr.channel, .ack) → exec (.answer frame) s = .next left)
    ∧ ∀ (c : Instr) (kind : FaultKind) (nak : Nat),
      (c = .responseTimeout ∧ kind = .noResponse ∧ nak = 0
        ∨ ∃ frame, c = .answer frame ∧ answerOf frame = some (tr.endpoint, tr.channel, .nak nak) ∧ kind = .refused) →
      (e.attempts < x.cfg.retryLimit → exec c s = .next
        (setFault (setLink s { s.link with transaction := none
                                           requests := s.link.requests ++ [{ requester := .cutList, resource := e.resource }] })
          { s.fault with cutList := { e with attempts := e.attempts + 1 } :: rest }))
      ∧ (x.cfg.retryLimit ≤ e.attempts → exec c s = .next (handEvent left
          { kind := .collapseFailed, subject := e.resource, detail := faultKindCode kind, action := 0, flags := 0, nak := nak
            endpoint := 0, channel := 0 }))

/-- The CLEAR of a clear record ends (R92): acknowledged, the lockout is over, the resource is judged against a target no longer forced, its
CLEAR waiters complete DONE, and the satisfied waiters covering it complete SATISFIED (R155); failed with a retry left, it requests again
with one attempt more; failed for good, the resource is LOCKED again, CLEAR_FAILED is handed and its CLEAR waiters complete FAULTED. A
response timer expires here whatever its count (the model's choice, entry 2). -/
def Obligations.ClearsEndOrFail : Prop :=
  ∀ (s : State) (tr : Transaction) (r n : Nat) (x : Resource),
    s.link.transaction = some tr → tr.requester = some (.clear r) → tr.kind = .clear → tget s.fault.clears r = some n →
    resourceAt s r = some x → x.cond = .clearing →
    (∀ frame, answerOf frame = some (tr.endpoint, tr.channel, .ack) → ∃ t g, exec (.answer frame) s = .next t
      ∧ targetOf t r = some g ∧ resourceAt t r = some { x with cond := if !x.alignOwed && meetsTarget x g then .steady else .waiting }
      ∧ t.fault = { s.fault with clears := tdel s.fault.clears r } ∧ t.link.transaction = none
      ∧ (∀ k w, tget t.waiters k = some w → isClear w = true → covers w r = false)
      ∧ (tsorted s.waiters = true → ∀ k w, tget s.waiters k = some w →
          (covers w r = true → isClear w = true → EndedWith s t w .done)
          ∧ (covers w r = true → waiterSatisfied t w = true → tget t.waiters k = none ∧ EndedWith s t w .satisfied)
          ∧ ((covers w r && isClear w) = false → waiterSatisfied t w = false → tget t.waiters k = some w))
      ∧ OnlyConditionsChange s t ∧ t.run = s.run ∧ t.votes = s.votes ∧ t.holds = s.holds ∧ t.domains = s.domains ∧ t.grants = s.grants
      ∧ t.intake = s.intake ∧ t.events = s.events ∧ t.pending = s.pending)
    ∧ ∀ (c : Instr) (kind : FaultKind) (nak : Nat),
      (c = .responseTimeout ∧ kind = .noResponse ∧ nak = 0
        ∨ ∃ frame, c = .answer frame ∧ answerOf frame = some (tr.endpoint, tr.channel, .nak nak) ∧ kind = .refused) →
      (n < x.cfg.retryLimit → exec c s = .next
        (setFault (setLink s { s.link with transaction := none, requests := s.link.requests ++ [{ requester := .clear r, resource := r }] })
          { s.fault with clears := tset s.fault.clears r (n + 1) }))
      ∧ (x.cfg.retryLimit ≤ n → ∃ t, exec c s = .next t
        ∧ resourceAt t r = some { x with cond := .locked } ∧ OtherResourcesKept s t r
        ∧ t.fault = { s.fault with clears := tdel s.fault.clears r } ∧ t.link.transaction = none
        ∧ EventHanded s t { kind := .clearFailed, subject := r, detail := faultKindCode kind, action := 0, flags := 0, nak := nak,
                                    endpoint := 0, channel := 0 }
        ∧ (∀ k w, tget t.waiters k = some w → isClear w = true → covers w r = false)
        ∧ (∀ k w, tget s.waiters k = some w → covers w r = true → isClear w = true → EndedWith s t w .faulted)
        ∧ t.run = s.run ∧ t.votes = s.votes ∧ t.holds = s.holds ∧ t.domains = s.domains ∧ t.grants = s.grants ∧ t.steps = s.steps
        ∧ t.intake = s.intake ∧ t.pending = s.pending)

/-- The SAMPLE of a QUERY or of the poller ends (R108, R109, R110): its DATA become the last sample with the run time, a QUERY completes
DONE with the result read after that, and a poll ends, a set flag being a condition fault taken after it (R74). With a retry left a NAK or
timeout places the same request again with one attempt more; without one it is a sample fault NO_RESPONSE (R75), taken after the QUERY
completed FAULTED or the poll ended; that the QUERY's FAULTED precedes those of the fault's lock whatever the entry numbers is the model's
choice (entry 21). DATA with no requester left are recorded only if the SAMPLE was a QUERY's, its slot not reconfigured
(R100, R110), and the run state is RUNNING or STOPPING (DEDUCED, entry 8). A response timer expires here whatever its count (the model's
choice, entry 2). -/
def Obligations.SamplesAreRecordedOrRetried : Prop :=
  ∀ (s : State) (tr : Transaction), s.link.transaction = some tr → tr.kind = .sample →
    let failed : Instr → Prop := fun c =>
      c = .responseTimeout ∨ ∃ frame nak, c = .answer frame ∧ answerOf frame = some (tr.endpoint, tr.channel, .nak nak)
    let idle := setLink s { s.link with transaction := none }
    let ended := setLink s { s.link with transaction := none, currentPoll := none, pollPending := false }
    let sampled : Resource → Reading → Resource := fun x reading => { x with lastSample := some { reading := reading, time := s.run.runTime } }
    (∀ k w r a x frame reading, tr.requester = some (.query k) → tget s.waiters k = some w → w.body = .query r a →
      resourceAt s r = some x →
      (answerOf frame = some (tr.endpoint, tr.channel, .data reading) →
        ∃ u, (reading.flags = noFlags → exec (.answer frame) s = .next u)
          ∧ (∀ kind, faultKindOfFlags reading.flags = some kind →
              exec (.answer frame) s = .next (takeFault u r kind .condition reading.flags 0))
          ∧ resourceAt u r = some (sampled x reading) ∧ OtherResourcesKept s u r
          ∧ tget u.waiters k = none ∧ (∀ j, j ≠ k → tget u.waiters j = tget s.waiters j)
          ∧ ((queueAt s w.domain).state = .enabled → (queueAt s w.domain).desc.isSome = true → PostedLast u
              { domain := w.domain, code := codeQuery, tag := w.tag, status := .done
                payload := queryResult u w.domain r (sampled x reading) })
          ∧ u.link = { s.link with transaction := none, requests := s.link.requests.filter fun q => q.requester != .query k }
          ∧ u.run = s.run ∧ u.votes = s.votes ∧ u.steps = s.steps ∧ u.fault = s.fault ∧ u.events = s.events)
      ∧ (∀ c, failed c → a < x.cfg.retryLimit → exec c s = .next
          (setWaiters (setLink s { s.link with transaction := none
                                               requests := s.link.requests ++ [{ requester := .query k, resource := r }] })
            (tset s.waiters k { w with body := .query r (a + 1) })))
      ∧ (∀ c, failed c → x.cfg.retryLimit ≤ a →
        ∃ u, exec c s = .next (takeFault u r .noResponse .sample noFlags 0)
          ∧ tget u.waiters k = none ∧ (∀ j, j ≠ k → tget u.waiters j = tget s.waiters j)
          ∧ u.link = { s.link with transaction := none, requests := s.link.requests.filter fun q => q.requester != .query k }
          ∧ u.run = s.run ∧ u.resources = s.resources ∧ u.votes = s.votes ∧ u.steps = s.steps ∧ u.fault = s.fault ∧ u.events = s.events
          ∧ ((queueAt s w.domain).state = .enabled → (queueAt s w.domain).desc.isSome = true →
              PostedLast u (plainCompletion w.domain codeQuery w.tag .faulted))))
    ∧ (∀ p x frame reading, tr.requester = some .poller → s.link.currentPoll = some p → resourceAt s p.resource = some x →
      (answerOf frame = some (tr.endpoint, tr.channel, .data reading) →
        (reading.flags = noFlags →
          exec (.answer frame) s = .next (setResources ended (tset s.resources p.resource (sampled x reading))))
        ∧ ∀ kind, faultKindOfFlags reading.flags = some kind → exec (.answer frame) s = .next
          (takeFault (setResources ended (tset s.resources p.resource (sampled x reading))) p.resource kind .condition reading.flags 0))
      ∧ (∀ c, failed c → p.attempts < x.cfg.retryLimit → exec c s = .next (setLink s { s.link with
          transaction := none, currentPoll := some { p with attempts := p.attempts + 1 }
          requests := s.link.requests ++ [{ requester := .poller, resource := p.resource }] }))
      ∧ (∀ c, failed c → x.cfg.retryLimit ≤ p.attempts →
        exec c s = .next (takeFault ended p.resource .noResponse .sample noFlags 0)))
    ∧ (∀ x frame reading, tr.requester = none → resourceAt s tr.resource = some x →
      (answerOf frame = some (tr.endpoint, tr.channel, .data reading) →
        (tr.cls = .sample → tr.voided = false → s.run.state = .running ∨ s.run.state = .stopping →
          (reading.flags = noFlags →
            exec (.answer frame) s = .next (setResources idle (tset s.resources tr.resource (sampled x reading))))
          ∧ ∀ kind, faultKindOfFlags reading.flags = some kind → exec (.answer frame) s = .next
            (takeFault (setResources idle (tset s.resources tr.resource (sampled x reading))) tr.resource kind .condition reading.flags 0))
        ∧ (tr.cls ≠ .sample ∨ tr.voided = true ∨ (s.run.state ≠ .running ∧ s.run.state ≠ .stopping) →
          exec (.answer frame) s = .next idle))
      ∧ ∀ c, failed c → exec c s = .next idle)

/-- A notice frame begins, and ends (R103, R104): its start takes note of the credit; at its end it is dropped in STOPPED and LOADING,
dropped with BAD_FRAME or NO_CREDIT, or else appended at the tail. A second start while one frame is in reception does nothing (the model's
choice, entry 3). -/
def Obligations.NoticeFramesAreCredited : Prop :=
  ∀ (s : State) (frame : List Byte) (credit : Bool) (n : Notice),
    (s.link.receiving = none → exec .noticeFrameStart s
      = .next (setLink s { s.link with receiving := some (decide (s.link.notices.length < 16)) }))
    ∧ (s.link.receiving = some credit → exec .noticeFrameStart s = .next s
      ∧ (s.run.state = .stopped ∨ s.run.state = .loading →
        exec (.noticeArrival frame) s = .next (setLink s { s.link with receiving := none }))
      ∧ (s.run.state ≠ .stopped → s.run.state ≠ .loading →
        (noticeOf frame = none → exec (.noticeArrival frame) s = .next (handEvent (setLink s { s.link with receiving := none })
          { kind := .strayNotice, subject := 0xFF, detail := 1, action := 0, flags := 0, nak := 0, endpoint := 0xFF, channel := 0xFF }))
        ∧ (noticeOf frame = some n → credit = false →
          exec (.noticeArrival frame) s = .next (handEvent (setLink s { s.link with receiving := none })
            { kind := .strayNotice, subject := 0xFF, detail := 2, action := 0, flags := 0, nak := 0,
              endpoint := n.endpoint, channel := n.channel }))
        ∧ (noticeOf frame = some n → credit = true →
          exec (.noticeArrival frame) s = .next (setLink s { s.link with receiving := none, notices := s.link.notices ++ [n] }))))

/-- The notice at the head of the FIFO is taken and routed by the Resource Table of the moment (R105). A SETTLED meets the one step that its
resource has (R60), where the law of steps holds (R48): in SETTLING the step enters HOLDING, with hold 0 it ends at once and is reported
(R64, R65), a NORMAL RAISE or SETPOINT step recording its to values; in ISSUED it is marked as settled early; in AWAITING_LINK or HOLDING,
and where there is no step, nothing happens. An ALERT is a condition fault of its resource (R74), whose action R77 gives; where that is NONE
it is counted and reported and nothing more (R76), and without a flag it is nothing. With no resource there the notice is a stray one. -/
def Obligations.NoticeTakeRoutesTheHead : Prop :=
  ∀ (s : State) (n : Notice) (rest : List Notice), s.link.notices = n :: rest →
    let u := setLink s { s.link with notices := rest }
    (slotCarrying s n.endpoint n.channel = none →
      exec .noticeTake s = .next (handEvent u
        { kind := .strayNotice, subject := 0xFF, detail := 3, action := 0, flags := 0, nak := 0,
          endpoint := n.endpoint, channel := n.channel }))
    ∧ (∀ r, slotCarrying s n.endpoint n.channel = some r → n.kind = .settled → hasStep s r = false →
      exec .noticeTake s = .next u)
    ∧ (∀ r x k st, ResourceLaw s → slotCarrying s n.endpoint n.channel = some r → n.kind = .settled → resourceAt s r = some x →
      stepAt s k = some st → st.resource = r →
      let recorded := st.purpose = .normal ∧ st.direction ≠ .lower
      let y := if recorded then { x with level := st.goal.level, setpoint := st.goal.setpoint } else x
      (st.state = .issued → exec .noticeTake s = .next (setSteps u (tset s.steps k { st with early := true })))
      ∧ (st.state = .awaitingLink ∨ (∃ m, st.state = .holding m) → exec .noticeTake s = .next u)
      ∧ (∀ m, st.state = .settling m → x.cfg.hold ≠ 0 → exec .noticeTake s = .next
          (setSteps (setResources u (if recorded then tset s.resources r y else s.resources))
            (tset s.steps k { st with state := .holding x.cfg.hold })))
      ∧ (∀ m g, st.state = .settling m → x.cfg.hold = 0 → targetOf s r = some g → ∃ t z, exec .noticeTake s = .next t
        ∧ stepAt t k = none ∧ (∀ j, j ≠ k → stepAt t j = stepAt s j)
        ∧ z = { y with alignOwed := x.alignOwed && st.purpose != Purpose.align }
        ∧ resourceAt t r = some { z with cond := if !z.alignOwed && meetsTarget z g then .steady else .waiting }
        ∧ (tsorted s.waiters = true → Reported s t r)
        ∧ OtherResourcesKept s t r ∧ (∀ j, targetOf t j = targetOf s j)
        ∧ t.run = s.run ∧ t.votes = s.votes ∧ t.holds = s.holds ∧ t.domains = s.domains ∧ t.grants = s.grants ∧ t.fault = s.fault
        ∧ t.intake = s.intake ∧ t.events = s.events ∧ t.pending = s.pending))
    ∧ (∀ r x flags kind, slotCarrying s n.endpoint n.channel = some r → n.kind = .alert flags → resourceAt s r = some x →
      faultKindOfFlags flags = some kind →
      exec .noticeTake s = .next (takeFault u r kind .condition flags 0)
      ∧ (x.level = .off ∨ x.cond = .locked ∨ x.cond = .clearing ∨ x.cfg.policy = .report →
        exec .noticeTake s = .next (handEvent (setResources u
            (tset s.resources r { x with lastFault := some kind, faultCount := min 255 (x.faultCount + 1) }))
          { kind := .fault, subject := r, detail := faultKindCode kind, action := 0, flags := flagBits flags, nak := 0,
            endpoint := 0, channel := 0 })))
    ∧ (∀ r flags, slotCarrying s n.endpoint n.channel = some r → n.kind = .alert flags → flags = noFlags →
      exec .noticeTake s = .next u)

/-- The period timer expires (R106): it starts again at the full period, and a POLL request is placed unless a poll is pending. The grant of
that request (R107) chooses the first resource from the cursor upward that qualifies, and is dropped when none does; the grant of a retry
samples the same resource (R108). An expiry is taken whatever the count (the model's choice, entry 2). -/
def Obligations.PollsTakeResourcesInTurn : Prop :=
  ∀ s : State,
    (∀ n, s.link.pollTimer = some n →
      (s.link.pollPending = false → exec .pollPeriodExpiry s = .next (setLink s { s.link with
        pollTimer := fullPeriod s.link.pollPeriod, pollPending := true
        requests := s.link.requests ++ [{ requester := .poller, resource := s.link.cursor }] }))
      ∧ (s.link.pollPending = true →
        exec .pollPeriodExpiry s = .next (setLink s { s.link with pollTimer := fullPeriod s.link.pollPeriod })))
    ∧ (∀ q, s.link.transaction = none → s.link.requests = [q] → q.requester = .poller → s.link.currentPoll = none →
      ((∀ i, i < 64 → pollable s ((s.link.cursor + i) % 64) = false) →
        exec .linkGrant s = .next (setLink s { s.link with requests := [], pollPending := false }))
      ∧ (∀ i x, i < 64 → pollable s ((s.link.cursor + i) % 64) = true →
        (∀ j, j < i → pollable s ((s.link.cursor + j) % 64) = false) → resourceAt s ((s.link.cursor + i) % 64) = some x →
        ∃ t, exec .linkGrant s = .next t ∧ OnlyLinkChanges s t
          ∧ t.link.currentPoll = some { resource := (s.link.cursor + i) % 64, attempts := 0 }
          ∧ t.link.cursor = ((s.link.cursor + i) % 64 + 1) % 64 ∧ t.link.requests = []
          ∧ t.link.transaction = some
              { kind := .sample, endpoint := x.cfg.endpoint, channel := x.cfg.channel, cls := .poll
                requester := some .poller, resource := (s.link.cursor + i) % 64, timer := 20, voided := false
                frame := sampleFrame x.cfg.endpoint x.cfg.channel }))
    ∧ (∀ q p x, s.link.transaction = none → s.link.requests = [q] → q.requester = .poller → s.link.currentPoll = some p →
      resourceAt s p.resource = some x → exec .linkGrant s = .next (setLink s { s.link with
        requests := []
        transaction := some
          { kind := .sample, endpoint := x.cfg.endpoint, channel := x.cfg.channel, cls := .poll, requester := some .poller
            resource := p.resource, timer := 20, voided := false, frame := sampleFrame x.cfg.endpoint x.cfg.channel } }))

/-! ## Faults -/

/-- A lock of a resource (R79, R80), by the fault that calls for it: the resource is LOCKED at OFF with no step, on the Cut List; each
descendant that was STEADY, WAITING or STEPPING stands at OFF without a step, STEADY or WAITING; the waiters covering the resource but its
CLEAR waiters complete FAULTED; the Cut List gains the resource and the collapsed descendants that were above OFF or whose step had sent its
SET, and no other (R79, R80); a FAULT event carries the action LOCK (R76); SAFE, cells, holds and grants stand. -/
def Obligations.LockCollapsesTheTreeBelow : Prop :=
  ∀ (s : State) (r : Nat) (x : Resource) (kind : FaultKind) (cls : FaultClass) (flags : Flags) (nak : Nat),
    resourceAt s r = some x → x.cond ≠ .locked → x.cond ≠ .clearing → (cls = .condition → x.level ≠ .off) →
    x.cfg.policy = .cut ∨ (x.cfg.policy = .report ∧ cls ≠ .condition) ∨ (x.cfg.policy = .trip ∧ s.fault.safe = true) →
    ∃ t, takeFault s r kind cls flags nak = t
      ∧ resourceAt t r = some { x with
          level := .off, setpoint := none, cond := .locked, alignOwed := false
          lastFault := some kind, faultCount := min 255 (x.faultCount + 1) }
      ∧ hasStep t r = false ∧ onCutList t r = true ∧ targetOf t r = some { level := .off, setpoint := none }
      ∧ (∀ c y, c ∈ descendantsOf s r → c ≠ r → resourceAt s c = some y → collapses y →
          ∃ z, resourceAt t c = some z ∧ hasStep t c = false ∧ (z.cond = .steady ∨ z.cond = .waiting)
            ∧ withoutCond z = withoutCond { y with level := .off, setpoint := none, alignOwed := false }
            ∧ (y.level ≠ .off → onCutList t c = true))
      ∧ (∀ c y, c ≠ r → resourceAt s c = some y → ¬ collapses y → (resourceAt t c).map withoutCond = some (withoutCond y))
      ∧ (∀ c, onCutList t c = true ↔ onCutList s c = true ∨ c = r
          ∨ c ∈ descendantsOf s r ∧ ∃ y, resourceAt s c = some y ∧ collapses y
            ∧ (y.level ≠ .off ∨ ∃ e ∈ s.steps, e.2.resource = c ∧ hasSentSet e.2 = true))
      ∧ EventHanded s t { kind := .fault, subject := r, detail := faultKindCode kind, action := 1, flags := flagBits flags, nak := nak
                          endpoint := 0, channel := 0 }
      ∧ (∀ c, c ≠ r → c ∉ descendantsOf s r → (resourceAt t c).map withoutCond = (resourceAt s c).map withoutCond)
      ∧ (∀ k w, tget t.waiters k = some w → covers w r = true → isClear w = true)
      ∧ (∀ k w, tget s.waiters k = some w → covers w r = true → isClear w = false → EndedWith s t w .faulted)
      ∧ t.fault.safe = s.fault.safe ∧ t.fault.tripCause = s.fault.tripCause ∧ t.fault.clears = s.fault.clears
      ∧ t.run = s.run ∧ t.votes = s.votes ∧ t.holds = s.holds ∧ t.domains = s.domains ∧ t.grants = s.grants

/-- A TRIP fault outside SAFE locks its resource and enters SAFE (R77, R87): the flag and the trip cause are set, every present target is
OFF, no unissued step rises, and every waiter left is of kind CLEAR, those covering the resource having completed FAULTED and the others
SAFE (R164). The FAULT event with action LOCK_SAFE is followed by SAFE_ENTERED (R76). Another resource record changes by its condition, the
collapse of R79, what a withdrawn step records (R67) and the releases of R72 alone. -/
def Obligations.TripFaultEntersSafe : Prop :=
  ∀ (s : State) (r : Nat) (x : Resource) (kind : FaultKind) (cls : FaultClass) (flags : Flags) (nak : Nat),
    resourceAt s r = some x → x.cond ≠ .locked → x.cond ≠ .clearing → (cls = .condition → x.level ≠ .off) →
    x.cfg.policy = .trip → s.fault.safe = false →
    ∃ t, takeFault s r kind cls flags nak = t
      ∧ t.fault.safe = true ∧ t.fault.tripCause = some { resource := r, kind := kind } ∧ t.fault.clears = s.fault.clears
      ∧ resourceAt t r = some { x with
          level := .off, setpoint := none, cond := .locked, alignOwed := false
          lastFault := some kind, faultCount := min 255 (x.faultCount + 1) }
      ∧ onCutList t r = true
      ∧ (∀ c z, resourceAt t c = some z → targetOf t c = some { level := .off, setpoint := none })
      ∧ (∀ k st, stepAt t k = some st → (isAwaiting st && risesTowards st) = false)
      ∧ (∀ k w, tget t.waiters k = some w → isClear w = true)
      ∧ (tsorted s.waiters = true → ∀ k w, tget s.waiters k = some w → isClear w = false →
          EndedWith s t w (if covers w r = true then .faulted else .safe))
      ∧ EventHanded (handEvent s
          { kind := .fault, subject := r, detail := faultKindCode kind, action := 2, flags := flagBits flags, nak := nak, endpoint := 0
            channel := 0 }) t (plainEvent .safeEntered r (faultKindCode kind))
      ∧ (∀ c y, c ≠ r → resourceAt s c = some y →
          (c ∈ descendantsOf s r → collapses y →
            (resourceAt t c).map withoutCond = some (withoutCond { y with level := .off, setpoint := none, alignOwed := false })
            ∧ hasStep t c = false ∧ (y.level ≠ .off → onCutList t c = true))
          ∧ (c ∉ descendantsOf s r ∨ ¬ collapses y →
            let owed := y.alignOwed && y.cfg.initial == .off
            (tsorted s.resources = true → hasStep s c = false →
              (resourceAt t c).map withoutCond = some (withoutCond { y with alignOwed := owed }))
            ∧ (ResourceLaw s → ∀ k st, stepAt s k = some st → st.resource = c →
              (isBarred st = true →
                (resourceAt t c).map withoutCond = some (withoutCond { withdrawnRecord st y with alignOwed := owed }))
              ∧ (isBarred st = false → y.alignOwed = false ∨ y.cfg.initial = .off ∨ isAwaiting st = false ∨ 1 ≤ st.retries →
                (resourceAt t c).map withoutCond = some (withoutCond y)))))
      ∧ t.run = s.run ∧ t.votes = s.votes ∧ t.holds = s.holds ∧ t.domains = s.domains ∧ t.grants = s.grants

/-! ## Leases and deadlines -/

/-- The expiry of a running lease that has reached 0 (R120, R122, R117): the domain is DETACHED with its lease stopped, every waiter of it
completes DETACHED (R160), its cells stand, LEASE_LOST carries the posture it held, and no other domain record changes. A lease that does
not run or has time left has no expiry: its row does nothing (the model's choice, entry 3). -/
def Obligations.LeaseExpiryDetaches : Prop :=
  ∀ (s : State) (d : Domain),
    (∀ p, s.run.state = .running → (domainAt s d).enabled = true → (domainAt s d).posture = some p → p ≠ .detached →
      (domainAt s d).leasePeriod ≠ 0 → (domainAt s d).lease = some 0 →
      ∃ t, exec (.leaseExpiry d) s = .next t
        ∧ domainAt t d = { domainAt s d with posture := some .detached, lease := none }
        ∧ (∀ e, e ≠ d → domainAt t e = domainAt s e)
        ∧ (∀ k w, tget t.waiters k = some w → w.domain ≠ d)
        ∧ (∀ k w, tget s.waiters k = some w → w.domain = d → EndedWith s t w .detached)
        ∧ EventHanded s t (plainEvent .leaseLost d.val (postureCode p))
        ∧ t.votes = s.votes ∧ OnlyConditionsChange s t ∧ t.run = s.run ∧ t.holds = s.holds ∧ t.grants = s.grants ∧ t.fault = s.fault
        ∧ t.intake = s.intake ∧ t.pending = s.pending)
    ∧ (s.run.state ≠ .running ∨ (domainAt s d).enabled = false ∨ (domainAt s d).posture = some .detached
        ∨ (domainAt s d).lease ≠ some 0 → exec (.leaseExpiry d) s = .next s)

/-- The expiry of a waiter's deadline (R157): the waiter completes TIMED_OUT and its entry is FREE; a QUERY's SAMPLE request is removed and
its SAMPLE runs to no requester; the rest of the Link Controller, the other queues, cells, steps, resources and the Fault Unit stand. The
expiry is taken whatever the count (the model's choice, entry 2). -/
def Obligations.DeadlineExpiryTimesOut : Prop :=
  ∀ (s : State) (k n : Nat) (w : Waiter), tget s.waiters k = some w → w.deadline = some n →
    ∃ t, exec (.deadlineExpiry k) s = .next t
      ∧ tget t.waiters k = none ∧ (∀ j, j ≠ k → tget t.waiters j = tget s.waiters j)
      ∧ ((queueAt s w.domain).state = .enabled → (queueAt s w.domain).desc.isSome = true →
          PostedLast t (plainCompletion w.domain (waiterCode w.body) w.tag .timedOut))
      ∧ t.host = (postCompletion s true (plainCompletion w.domain (waiterCode w.body) w.tag .timedOut)).host
      ∧ t.queues = (postCompletion s true (plainCompletion w.domain (waiterCode w.body) w.tag .timedOut)).queues
      ∧ (∀ e, e ≠ w.domain → queueAt t e = queueAt s e)
      ∧ (queueAt t w.domain).reservations = (queueAt s w.domain).reservations - 1
      ∧ t.link = { s.link with
          requests := s.link.requests.filter fun q => q.requester != .query k
          transaction := s.link.transaction.map fun tr => if tr.requester = some (.query k) then { tr with requester := none } else tr }
      ∧ t.run = s.run ∧ t.resources = s.resources ∧ t.votes = s.votes ∧ t.holds = s.holds ∧ t.domains = s.domains
      ∧ t.grants = s.grants ∧ t.steps = s.steps ∧ t.fault = s.fault ∧ t.intake = s.intake ∧ t.events = s.events
      ∧ t.pending = s.pending
end

