-- ==== Sys2Proof/Laws/State.lean ====
section
/-! SUPPORT. One lemma per field per update of the state, true by rfl, so that no later proof unfolds a record update. -/

namespace Sys2Proof.Machine

variable (s : State)

/-! ## setRun -/

@[simp] theorem setRun_run (x : RunControl) : (setRun s x).run = x := rfl
@[simp] theorem setRun_host (x : RunControl) : (setRun s x).host = s.host := rfl
@[simp] theorem setRun_resources (x : RunControl) : (setRun s x).resources = s.resources := rfl
@[simp] theorem setRun_votes (x : RunControl) : (setRun s x).votes = s.votes := rfl
@[simp] theorem setRun_holds (x : RunControl) : (setRun s x).holds = s.holds := rfl
@[simp] theorem setRun_domains (x : RunControl) : (setRun s x).domains = s.domains := rfl
@[simp] theorem setRun_grants (x : RunControl) : (setRun s x).grants = s.grants := rfl
@[simp] theorem setRun_steps (x : RunControl) : (setRun s x).steps = s.steps := rfl
@[simp] theorem setRun_link (x : RunControl) : (setRun s x).link = s.link := rfl
@[simp] theorem setRun_fault (x : RunControl) : (setRun s x).fault = s.fault := rfl
@[simp] theorem setRun_waiters (x : RunControl) : (setRun s x).waiters = s.waiters := rfl
@[simp] theorem setRun_queues (x : RunControl) : (setRun s x).queues = s.queues := rfl
@[simp] theorem setRun_intake (x : RunControl) : (setRun s x).intake = s.intake := rfl
@[simp] theorem setRun_events (x : RunControl) : (setRun s x).events = s.events := rfl
@[simp] theorem setRun_pending (x : RunControl) : (setRun s x).pending = s.pending := rfl

/-! ## setHost -/

@[simp] theorem setHost_run (x : HostPort) : (setHost s x).run = s.run := rfl
@[simp] theorem setHost_host (x : HostPort) : (setHost s x).host = x := rfl
@[simp] theorem setHost_resources (x : HostPort) : (setHost s x).resources = s.resources := rfl
@[simp] theorem setHost_votes (x : HostPort) : (setHost s x).votes = s.votes := rfl
@[simp] theorem setHost_holds (x : HostPort) : (setHost s x).holds = s.holds := rfl
@[simp] theorem setHost_domains (x : HostPort) : (setHost s x).domains = s.domains := rfl
@[simp] theorem setHost_grants (x : HostPort) : (setHost s x).grants = s.grants := rfl
@[simp] theorem setHost_steps (x : HostPort) : (setHost s x).steps = s.steps := rfl
@[simp] theorem setHost_link (x : HostPort) : (setHost s x).link = s.link := rfl
@[simp] theorem setHost_fault (x : HostPort) : (setHost s x).fault = s.fault := rfl
@[simp] theorem setHost_waiters (x : HostPort) : (setHost s x).waiters = s.waiters := rfl
@[simp] theorem setHost_queues (x : HostPort) : (setHost s x).queues = s.queues := rfl
@[simp] theorem setHost_intake (x : HostPort) : (setHost s x).intake = s.intake := rfl
@[simp] theorem setHost_events (x : HostPort) : (setHost s x).events = s.events := rfl
@[simp] theorem setHost_pending (x : HostPort) : (setHost s x).pending = s.pending := rfl

/-! ## setResources -/

@[simp] theorem setResources_run (x : Table Resource) : (setResources s x).run = s.run := rfl
@[simp] theorem setResources_host (x : Table Resource) : (setResources s x).host = s.host := rfl
@[simp] theorem setResources_resources (x : Table Resource) : (setResources s x).resources = x := rfl
@[simp] theorem setResources_votes (x : Table Resource) : (setResources s x).votes = s.votes := rfl
@[simp] theorem setResources_holds (x : Table Resource) : (setResources s x).holds = s.holds := rfl
@[simp] theorem setResources_domains (x : Table Resource) : (setResources s x).domains = s.domains := rfl
@[simp] theorem setResources_grants (x : Table Resource) : (setResources s x).grants = s.grants := rfl
@[simp] theorem setResources_steps (x : Table Resource) : (setResources s x).steps = s.steps := rfl
@[simp] theorem setResources_link (x : Table Resource) : (setResources s x).link = s.link := rfl
@[simp] theorem setResources_fault (x : Table Resource) : (setResources s x).fault = s.fault := rfl
@[simp] theorem setResources_waiters (x : Table Resource) : (setResources s x).waiters = s.waiters := rfl
@[simp] theorem setResources_queues (x : Table Resource) : (setResources s x).queues = s.queues := rfl
@[simp] theorem setResources_intake (x : Table Resource) : (setResources s x).intake = s.intake := rfl
@[simp] theorem setResources_events (x : Table Resource) : (setResources s x).events = s.events := rfl
@[simp] theorem setResources_pending (x : Table Resource) : (setResources s x).pending = s.pending := rfl

/-! ## setVotes -/

@[simp] theorem setVotes_run (x : Vector (Table Setting) 8) : (setVotes s x).run = s.run := rfl
@[simp] theorem setVotes_host (x : Vector (Table Setting) 8) : (setVotes s x).host = s.host := rfl
@[simp] theorem setVotes_resources (x : Vector (Table Setting) 8) : (setVotes s x).resources = s.resources := rfl
@[simp] theorem setVotes_votes (x : Vector (Table Setting) 8) : (setVotes s x).votes = x := rfl
@[simp] theorem setVotes_holds (x : Vector (Table Setting) 8) : (setVotes s x).holds = s.holds := rfl
@[simp] theorem setVotes_domains (x : Vector (Table Setting) 8) : (setVotes s x).domains = s.domains := rfl
@[simp] theorem setVotes_grants (x : Vector (Table Setting) 8) : (setVotes s x).grants = s.grants := rfl
@[simp] theorem setVotes_steps (x : Vector (Table Setting) 8) : (setVotes s x).steps = s.steps := rfl
@[simp] theorem setVotes_link (x : Vector (Table Setting) 8) : (setVotes s x).link = s.link := rfl
@[simp] theorem setVotes_fault (x : Vector (Table Setting) 8) : (setVotes s x).fault = s.fault := rfl
@[simp] theorem setVotes_waiters (x : Vector (Table Setting) 8) : (setVotes s x).waiters = s.waiters := rfl
@[simp] theorem setVotes_queues (x : Vector (Table Setting) 8) : (setVotes s x).queues = s.queues := rfl
@[simp] theorem setVotes_intake (x : Vector (Table Setting) 8) : (setVotes s x).intake = s.intake := rfl
@[simp] theorem setVotes_events (x : Vector (Table Setting) 8) : (setVotes s x).events = s.events := rfl
@[simp] theorem setVotes_pending (x : Vector (Table Setting) 8) : (setVotes s x).pending = s.pending := rfl

/-! ## setHolds -/

@[simp] theorem setHolds_run (x : Table Level) : (setHolds s x).run = s.run := rfl
@[simp] theorem setHolds_host (x : Table Level) : (setHolds s x).host = s.host := rfl
@[simp] theorem setHolds_resources (x : Table Level) : (setHolds s x).resources = s.resources := rfl
@[simp] theorem setHolds_votes (x : Table Level) : (setHolds s x).votes = s.votes := rfl
@[simp] theorem setHolds_holds (x : Table Level) : (setHolds s x).holds = x := rfl
@[simp] theorem setHolds_domains (x : Table Level) : (setHolds s x).domains = s.domains := rfl
@[simp] theorem setHolds_grants (x : Table Level) : (setHolds s x).grants = s.grants := rfl
@[simp] theorem setHolds_steps (x : Table Level) : (setHolds s x).steps = s.steps := rfl
@[simp] theorem setHolds_link (x : Table Level) : (setHolds s x).link = s.link := rfl
@[simp] theorem setHolds_fault (x : Table Level) : (setHolds s x).fault = s.fault := rfl
@[simp] theorem setHolds_waiters (x : Table Level) : (setHolds s x).waiters = s.waiters := rfl
@[simp] theorem setHolds_queues (x : Table Level) : (setHolds s x).queues = s.queues := rfl
@[simp] theorem setHolds_intake (x : Table Level) : (setHolds s x).intake = s.intake := rfl
@[simp] theorem setHolds_events (x : Table Level) : (setHolds s x).events = s.events := rfl
@[simp] theorem setHolds_pending (x : Table Level) : (setHolds s x).pending = s.pending := rfl

/-! ## setDomains -/

@[simp] theorem setDomains_run (x : Vector DomainRec 8) : (setDomains s x).run = s.run := rfl
@[simp] theorem setDomains_host (x : Vector DomainRec 8) : (setDomains s x).host = s.host := rfl
@[simp] theorem setDomains_resources (x : Vector DomainRec 8) : (setDomains s x).resources = s.resources := rfl
@[simp] theorem setDomains_votes (x : Vector DomainRec 8) : (setDomains s x).votes = s.votes := rfl
@[simp] theorem setDomains_holds (x : Vector DomainRec 8) : (setDomains s x).holds = s.holds := rfl
@[simp] theorem setDomains_domains (x : Vector DomainRec 8) : (setDomains s x).domains = x := rfl
@[simp] theorem setDomains_grants (x : Vector DomainRec 8) : (setDomains s x).grants = s.grants := rfl
@[simp] theorem setDomains_steps (x : Vector DomainRec 8) : (setDomains s x).steps = s.steps := rfl
@[simp] theorem setDomains_link (x : Vector DomainRec 8) : (setDomains s x).link = s.link := rfl
@[simp] theorem setDomains_fault (x : Vector DomainRec 8) : (setDomains s x).fault = s.fault := rfl
@[simp] theorem setDomains_waiters (x : Vector DomainRec 8) : (setDomains s x).waiters = s.waiters := rfl
@[simp] theorem setDomains_queues (x : Vector DomainRec 8) : (setDomains s x).queues = s.queues := rfl
@[simp] theorem setDomains_intake (x : Vector DomainRec 8) : (setDomains s x).intake = s.intake := rfl
@[simp] theorem setDomains_events (x : Vector DomainRec 8) : (setDomains s x).events = s.events := rfl
@[simp] theorem setDomains_pending (x : Vector DomainRec 8) : (setDomains s x).pending = s.pending := rfl

/-! ## setGrants -/

@[simp] theorem setGrants_run (x : Table Grant) : (setGrants s x).run = s.run := rfl
@[simp] theorem setGrants_host (x : Table Grant) : (setGrants s x).host = s.host := rfl
@[simp] theorem setGrants_resources (x : Table Grant) : (setGrants s x).resources = s.resources := rfl
@[simp] theorem setGrants_votes (x : Table Grant) : (setGrants s x).votes = s.votes := rfl
@[simp] theorem setGrants_holds (x : Table Grant) : (setGrants s x).holds = s.holds := rfl
@[simp] theorem setGrants_domains (x : Table Grant) : (setGrants s x).domains = s.domains := rfl
@[simp] theorem setGrants_grants (x : Table Grant) : (setGrants s x).grants = x := rfl
@[simp] theorem setGrants_steps (x : Table Grant) : (setGrants s x).steps = s.steps := rfl
@[simp] theorem setGrants_link (x : Table Grant) : (setGrants s x).link = s.link := rfl
@[simp] theorem setGrants_fault (x : Table Grant) : (setGrants s x).fault = s.fault := rfl
@[simp] theorem setGrants_waiters (x : Table Grant) : (setGrants s x).waiters = s.waiters := rfl
@[simp] theorem setGrants_queues (x : Table Grant) : (setGrants s x).queues = s.queues := rfl
@[simp] theorem setGrants_intake (x : Table Grant) : (setGrants s x).intake = s.intake := rfl
@[simp] theorem setGrants_events (x : Table Grant) : (setGrants s x).events = s.events := rfl
@[simp] theorem setGrants_pending (x : Table Grant) : (setGrants s x).pending = s.pending := rfl

/-! ## setSteps -/

@[simp] theorem setSteps_run (x : Table Step) : (setSteps s x).run = s.run := rfl
@[simp] theorem setSteps_host (x : Table Step) : (setSteps s x).host = s.host := rfl
@[simp] theorem setSteps_resources (x : Table Step) : (setSteps s x).resources = s.resources := rfl
@[simp] theorem setSteps_votes (x : Table Step) : (setSteps s x).votes = s.votes := rfl
@[simp] theorem setSteps_holds (x : Table Step) : (setSteps s x).holds = s.holds := rfl
@[simp] theorem setSteps_domains (x : Table Step) : (setSteps s x).domains = s.domains := rfl
@[simp] theorem setSteps_grants (x : Table Step) : (setSteps s x).grants = s.grants := rfl
@[simp] theorem setSteps_steps (x : Table Step) : (setSteps s x).steps = x := rfl
@[simp] theorem setSteps_link (x : Table Step) : (setSteps s x).link = s.link := rfl
@[simp] theorem setSteps_fault (x : Table Step) : (setSteps s x).fault = s.fault := rfl
@[simp] theorem setSteps_waiters (x : Table Step) : (setSteps s x).waiters = s.waiters := rfl
@[simp] theorem setSteps_queues (x : Table Step) : (setSteps s x).queues = s.queues := rfl
@[simp] theorem setSteps_intake (x : Table Step) : (setSteps s x).intake = s.intake := rfl
@[simp] theorem setSteps_events (x : Table Step) : (setSteps s x).events = s.events := rfl
@[simp] theorem setSteps_pending (x : Table Step) : (setSteps s x).pending = s.pending := rfl

/-! ## setLink -/

@[simp] theorem setLink_run (x : LinkController) : (setLink s x).run = s.run := rfl
@[simp] theorem setLink_host (x : LinkController) : (setLink s x).host = s.host := rfl
@[simp] theorem setLink_resources (x : LinkController) : (setLink s x).resources = s.resources := rfl
@[simp] theorem setLink_votes (x : LinkController) : (setLink s x).votes = s.votes := rfl
@[simp] theorem setLink_holds (x : LinkController) : (setLink s x).holds = s.holds := rfl
@[simp] theorem setLink_domains (x : LinkController) : (setLink s x).domains = s.domains := rfl
@[simp] theorem setLink_grants (x : LinkController) : (setLink s x).grants = s.grants := rfl
@[simp] theorem setLink_steps (x : LinkController) : (setLink s x).steps = s.steps := rfl
@[simp] theorem setLink_link (x : LinkController) : (setLink s x).link = x := rfl
@[simp] theorem setLink_fault (x : LinkController) : (setLink s x).fault = s.fault := rfl
@[simp] theorem setLink_waiters (x : LinkController) : (setLink s x).waiters = s.waiters := rfl
@[simp] theorem setLink_queues (x : LinkController) : (setLink s x).queues = s.queues := rfl
@[simp] theorem setLink_intake (x : LinkController) : (setLink s x).intake = s.intake := rfl
@[simp] theorem setLink_events (x : LinkController) : (setLink s x).events = s.events := rfl
@[simp] theorem setLink_pending (x : LinkController) : (setLink s x).pending = s.pending := rfl

/-! ## setFault -/

@[simp] theorem setFault_run (x : FaultUnit) : (setFault s x).run = s.run := rfl
@[simp] theorem setFault_host (x : FaultUnit) : (setFault s x).host = s.host := rfl
@[simp] theorem setFault_resources (x : FaultUnit) : (setFault s x).resources = s.resources := rfl
@[simp] theorem setFault_votes (x : FaultUnit) : (setFault s x).votes = s.votes := rfl
@[simp] theorem setFault_holds (x : FaultUnit) : (setFault s x).holds = s.holds := rfl
@[simp] theorem setFault_domains (x : FaultUnit) : (setFault s x).domains = s.domains := rfl
@[simp] theorem setFault_grants (x : FaultUnit) : (setFault s x).grants = s.grants := rfl
@[simp] theorem setFault_steps (x : FaultUnit) : (setFault s x).steps = s.steps := rfl
@[simp] theorem setFault_link (x : FaultUnit) : (setFault s x).link = s.link := rfl
@[simp] theorem setFault_fault (x : FaultUnit) : (setFault s x).fault = x := rfl
@[simp] theorem setFault_waiters (x : FaultUnit) : (setFault s x).waiters = s.waiters := rfl
@[simp] theorem setFault_queues (x : FaultUnit) : (setFault s x).queues = s.queues := rfl
@[simp] theorem setFault_intake (x : FaultUnit) : (setFault s x).intake = s.intake := rfl
@[simp] theorem setFault_events (x : FaultUnit) : (setFault s x).events = s.events := rfl
@[simp] theorem setFault_pending (x : FaultUnit) : (setFault s x).pending = s.pending := rfl

/-! ## setWaiters -/

@[simp] theorem setWaiters_run (x : Table Waiter) : (setWaiters s x).run = s.run := rfl
@[simp] theorem setWaiters_host (x : Table Waiter) : (setWaiters s x).host = s.host := rfl
@[simp] theorem setWaiters_resources (x : Table Waiter) : (setWaiters s x).resources = s.resources := rfl
@[simp] theorem setWaiters_votes (x : Table Waiter) : (setWaiters s x).votes = s.votes := rfl
@[simp] theorem setWaiters_holds (x : Table Waiter) : (setWaiters s x).holds = s.holds := rfl
@[simp] theorem setWaiters_domains (x : Table Waiter) : (setWaiters s x).domains = s.domains := rfl
@[simp] theorem setWaiters_grants (x : Table Waiter) : (setWaiters s x).grants = s.grants := rfl
@[simp] theorem setWaiters_steps (x : Table Waiter) : (setWaiters s x).steps = s.steps := rfl
@[simp] theorem setWaiters_link (x : Table Waiter) : (setWaiters s x).link = s.link := rfl
@[simp] theorem setWaiters_fault (x : Table Waiter) : (setWaiters s x).fault = s.fault := rfl
@[simp] theorem setWaiters_waiters (x : Table Waiter) : (setWaiters s x).waiters = x := rfl
@[simp] theorem setWaiters_queues (x : Table Waiter) : (setWaiters s x).queues = s.queues := rfl
@[simp] theorem setWaiters_intake (x : Table Waiter) : (setWaiters s x).intake = s.intake := rfl
@[simp] theorem setWaiters_events (x : Table Waiter) : (setWaiters s x).events = s.events := rfl
@[simp] theorem setWaiters_pending (x : Table Waiter) : (setWaiters s x).pending = s.pending := rfl

/-! ## setQueues -/

@[simp] theorem setQueues_run (x : Vector Queue 8) : (setQueues s x).run = s.run := rfl
@[simp] theorem setQueues_host (x : Vector Queue 8) : (setQueues s x).host = s.host := rfl
@[simp] theorem setQueues_resources (x : Vector Queue 8) : (setQueues s x).resources = s.resources := rfl
@[simp] theorem setQueues_votes (x : Vector Queue 8) : (setQueues s x).votes = s.votes := rfl
@[simp] theorem setQueues_holds (x : Vector Queue 8) : (setQueues s x).holds = s.holds := rfl
@[simp] theorem setQueues_domains (x : Vector Queue 8) : (setQueues s x).domains = s.domains := rfl
@[simp] theorem setQueues_grants (x : Vector Queue 8) : (setQueues s x).grants = s.grants := rfl
@[simp] theorem setQueues_steps (x : Vector Queue 8) : (setQueues s x).steps = s.steps := rfl
@[simp] theorem setQueues_link (x : Vector Queue 8) : (setQueues s x).link = s.link := rfl
@[simp] theorem setQueues_fault (x : Vector Queue 8) : (setQueues s x).fault = s.fault := rfl
@[simp] theorem setQueues_waiters (x : Vector Queue 8) : (setQueues s x).waiters = s.waiters := rfl
@[simp] theorem setQueues_queues (x : Vector Queue 8) : (setQueues s x).queues = x := rfl
@[simp] theorem setQueues_intake (x : Vector Queue 8) : (setQueues s x).intake = s.intake := rfl
@[simp] theorem setQueues_events (x : Vector Queue 8) : (setQueues s x).events = s.events := rfl
@[simp] theorem setQueues_pending (x : Vector Queue 8) : (setQueues s x).pending = s.pending := rfl

/-! ## setIntake -/

@[simp] theorem setIntake_run (x : Intake) : (setIntake s x).run = s.run := rfl
@[simp] theorem setIntake_host (x : Intake) : (setIntake s x).host = s.host := rfl
@[simp] theorem setIntake_resources (x : Intake) : (setIntake s x).resources = s.resources := rfl
@[simp] theorem setIntake_votes (x : Intake) : (setIntake s x).votes = s.votes := rfl
@[simp] theorem setIntake_holds (x : Intake) : (setIntake s x).holds = s.holds := rfl
@[simp] theorem setIntake_domains (x : Intake) : (setIntake s x).domains = s.domains := rfl
@[simp] theorem setIntake_grants (x : Intake) : (setIntake s x).grants = s.grants := rfl
@[simp] theorem setIntake_steps (x : Intake) : (setIntake s x).steps = s.steps := rfl
@[simp] theorem setIntake_link (x : Intake) : (setIntake s x).link = s.link := rfl
@[simp] theorem setIntake_fault (x : Intake) : (setIntake s x).fault = s.fault := rfl
@[simp] theorem setIntake_waiters (x : Intake) : (setIntake s x).waiters = s.waiters := rfl
@[simp] theorem setIntake_queues (x : Intake) : (setIntake s x).queues = s.queues := rfl
@[simp] theorem setIntake_intake (x : Intake) : (setIntake s x).intake = x := rfl
@[simp] theorem setIntake_events (x : Intake) : (setIntake s x).events = s.events := rfl
@[simp] theorem setIntake_pending (x : Intake) : (setIntake s x).pending = s.pending := rfl

/-! ## setEvents -/

@[simp] theorem setEvents_run (x : EventRing) : (setEvents s x).run = s.run := rfl
@[simp] theorem setEvents_host (x : EventRing) : (setEvents s x).host = s.host := rfl
@[simp] theorem setEvents_resources (x : EventRing) : (setEvents s x).resources = s.resources := rfl
@[simp] theorem setEvents_votes (x : EventRing) : (setEvents s x).votes = s.votes := rfl
@[simp] theorem setEvents_holds (x : EventRing) : (setEvents s x).holds = s.holds := rfl
@[simp] theorem setEvents_domains (x : EventRing) : (setEvents s x).domains = s.domains := rfl
@[simp] theorem setEvents_grants (x : EventRing) : (setEvents s x).grants = s.grants := rfl
@[simp] theorem setEvents_steps (x : EventRing) : (setEvents s x).steps = s.steps := rfl
@[simp] theorem setEvents_link (x : EventRing) : (setEvents s x).link = s.link := rfl
@[simp] theorem setEvents_fault (x : EventRing) : (setEvents s x).fault = s.fault := rfl
@[simp] theorem setEvents_waiters (x : EventRing) : (setEvents s x).waiters = s.waiters := rfl
@[simp] theorem setEvents_queues (x : EventRing) : (setEvents s x).queues = s.queues := rfl
@[simp] theorem setEvents_intake (x : EventRing) : (setEvents s x).intake = s.intake := rfl
@[simp] theorem setEvents_events (x : EventRing) : (setEvents s x).events = x := rfl
@[simp] theorem setEvents_pending (x : EventRing) : (setEvents s x).pending = s.pending := rfl

/-! ## setPending -/

@[simp] theorem setPending_run (x : List Instr) : (setPending s x).run = s.run := rfl
@[simp] theorem setPending_host (x : List Instr) : (setPending s x).host = s.host := rfl
@[simp] theorem setPending_resources (x : List Instr) : (setPending s x).resources = s.resources := rfl
@[simp] theorem setPending_votes (x : List Instr) : (setPending s x).votes = s.votes := rfl
@[simp] theorem setPending_holds (x : List Instr) : (setPending s x).holds = s.holds := rfl
@[simp] theorem setPending_domains (x : List Instr) : (setPending s x).domains = s.domains := rfl
@[simp] theorem setPending_grants (x : List Instr) : (setPending s x).grants = s.grants := rfl
@[simp] theorem setPending_steps (x : List Instr) : (setPending s x).steps = s.steps := rfl
@[simp] theorem setPending_link (x : List Instr) : (setPending s x).link = s.link := rfl
@[simp] theorem setPending_fault (x : List Instr) : (setPending s x).fault = s.fault := rfl
@[simp] theorem setPending_waiters (x : List Instr) : (setPending s x).waiters = s.waiters := rfl
@[simp] theorem setPending_queues (x : List Instr) : (setPending s x).queues = s.queues := rfl
@[simp] theorem setPending_intake (x : List Instr) : (setPending s x).intake = s.intake := rfl
@[simp] theorem setPending_events (x : List Instr) : (setPending s x).events = s.events := rfl
@[simp] theorem setPending_pending (x : List Instr) : (setPending s x).pending = x := rfl

end Sys2Proof.Machine
end

