-- ==== Sys2Proof/Laws/Ops.lean ====
section
/-! SUPPORT. What each operation on one place, on requests, on steps and on conditions leaves as it was. -/

namespace Sys2Proof.Machine

/-- What every round of a fold keeps, the fold keeps. -/
theorem foldl_keeps {σ α β : Type} (g : σ → β) (f : σ → α → σ) (h : ∀ s a, g (f s a) = g s) (l : List α) (s : σ) :
    g (l.foldl f s) = g s := by
  induction l generalizing s with
  | nil => rfl
  | cons a l ih => simp [ih, h]

@[simp] theorem setResource_frame (s : State) (r : Nat) (x : Resource) :
    (setResource s r x).run = s.run ∧ (setResource s r x).host = s.host ∧ (setResource s r x).votes = s.votes
    ∧ (setResource s r x).holds = s.holds ∧ (setResource s r x).domains = s.domains ∧ (setResource s r x).grants = s.grants
    ∧ (setResource s r x).steps = s.steps ∧ (setResource s r x).link = s.link ∧ (setResource s r x).fault = s.fault
    ∧ (setResource s r x).waiters = s.waiters ∧ (setResource s r x).queues = s.queues ∧ (setResource s r x).intake = s.intake
    ∧ (setResource s r x).events = s.events ∧ (setResource s r x).pending = s.pending := by
  simp [setResource]

@[simp] theorem modifyResource_frame (s : State) (r : Nat) (f : Resource → Resource) :
    (modifyResource s r f).run = s.run ∧ (modifyResource s r f).host = s.host ∧ (modifyResource s r f).votes = s.votes
    ∧ (modifyResource s r f).holds = s.holds ∧ (modifyResource s r f).domains = s.domains
    ∧ (modifyResource s r f).grants = s.grants ∧ (modifyResource s r f).steps = s.steps ∧ (modifyResource s r f).link = s.link
    ∧ (modifyResource s r f).fault = s.fault ∧ (modifyResource s r f).waiters = s.waiters
    ∧ (modifyResource s r f).queues = s.queues ∧ (modifyResource s r f).intake = s.intake
    ∧ (modifyResource s r f).events = s.events ∧ (modifyResource s r f).pending = s.pending := by
  simp only [modifyResource]; (repeat' split) <;> simp

@[simp] theorem setCond_frame (s : State) (r : Nat) (c : Condition) :
    (setCond s r c).run = s.run ∧ (setCond s r c).host = s.host ∧ (setCond s r c).votes = s.votes
    ∧ (setCond s r c).holds = s.holds ∧ (setCond s r c).domains = s.domains ∧ (setCond s r c).grants = s.grants
    ∧ (setCond s r c).steps = s.steps ∧ (setCond s r c).link = s.link ∧ (setCond s r c).fault = s.fault
    ∧ (setCond s r c).waiters = s.waiters ∧ (setCond s r c).queues = s.queues ∧ (setCond s r c).intake = s.intake
    ∧ (setCond s r c).events = s.events ∧ (setCond s r c).pending = s.pending := by
  simp [setCond]

@[simp] theorem setDomainRec_frame (s : State) (d : Domain) (x : DomainRec) :
    (setDomainRec s d x).run = s.run ∧ (setDomainRec s d x).host = s.host ∧ (setDomainRec s d x).resources = s.resources
    ∧ (setDomainRec s d x).votes = s.votes ∧ (setDomainRec s d x).holds = s.holds ∧ (setDomainRec s d x).grants = s.grants
    ∧ (setDomainRec s d x).steps = s.steps ∧ (setDomainRec s d x).link = s.link ∧ (setDomainRec s d x).fault = s.fault
    ∧ (setDomainRec s d x).waiters = s.waiters ∧ (setDomainRec s d x).queues = s.queues ∧ (setDomainRec s d x).intake = s.intake
    ∧ (setDomainRec s d x).events = s.events ∧ (setDomainRec s d x).pending = s.pending := by
  simp [setDomainRec]

@[simp] theorem setQueue_frame (s : State) (d : Domain) (x : Queue) :
    (setQueue s d x).run = s.run ∧ (setQueue s d x).host = s.host ∧ (setQueue s d x).resources = s.resources
    ∧ (setQueue s d x).votes = s.votes ∧ (setQueue s d x).holds = s.holds ∧ (setQueue s d x).domains = s.domains
    ∧ (setQueue s d x).grants = s.grants ∧ (setQueue s d x).steps = s.steps ∧ (setQueue s d x).link = s.link
    ∧ (setQueue s d x).fault = s.fault ∧ (setQueue s d x).waiters = s.waiters ∧ (setQueue s d x).intake = s.intake
    ∧ (setQueue s d x).events = s.events ∧ (setQueue s d x).pending = s.pending := by
  simp [setQueue]

@[simp] theorem setCells_frame (s : State) (d : Domain) (x : Table Setting) :
    (setCells s d x).run = s.run ∧ (setCells s d x).host = s.host ∧ (setCells s d x).resources = s.resources
    ∧ (setCells s d x).holds = s.holds ∧ (setCells s d x).domains = s.domains ∧ (setCells s d x).grants = s.grants
    ∧ (setCells s d x).steps = s.steps ∧ (setCells s d x).link = s.link ∧ (setCells s d x).fault = s.fault
    ∧ (setCells s d x).waiters = s.waiters ∧ (setCells s d x).queues = s.queues ∧ (setCells s d x).intake = s.intake
    ∧ (setCells s d x).events = s.events ∧ (setCells s d x).pending = s.pending := by
  simp [setCells]

@[simp] theorem writeCell_frame (s : State) (d : Domain) (r : Nat) (c : Setting) :
    (writeCell s d r c).run = s.run ∧ (writeCell s d r c).host = s.host ∧ (writeCell s d r c).resources = s.resources
    ∧ (writeCell s d r c).holds = s.holds ∧ (writeCell s d r c).domains = s.domains ∧ (writeCell s d r c).grants = s.grants
    ∧ (writeCell s d r c).steps = s.steps ∧ (writeCell s d r c).link = s.link ∧ (writeCell s d r c).fault = s.fault
    ∧ (writeCell s d r c).waiters = s.waiters ∧ (writeCell s d r c).queues = s.queues ∧ (writeCell s d r c).intake = s.intake
    ∧ (writeCell s d r c).events = s.events ∧ (writeCell s d r c).pending = s.pending := by
  simp [writeCell]

@[simp] theorem dropCell_frame (s : State) (d : Domain) (r : Nat) :
    (dropCell s d r).run = s.run ∧ (dropCell s d r).host = s.host ∧ (dropCell s d r).resources = s.resources
    ∧ (dropCell s d r).holds = s.holds ∧ (dropCell s d r).domains = s.domains ∧ (dropCell s d r).grants = s.grants
    ∧ (dropCell s d r).steps = s.steps ∧ (dropCell s d r).link = s.link ∧ (dropCell s d r).fault = s.fault
    ∧ (dropCell s d r).waiters = s.waiters ∧ (dropCell s d r).queues = s.queues ∧ (dropCell s d r).intake = s.intake
    ∧ (dropCell s d r).events = s.events ∧ (dropCell s d r).pending = s.pending := by
  simp [dropCell]

@[simp] theorem setStep_frame (s : State) (k : Nat) (x : Step) :
    (setStep s k x).run = s.run ∧ (setStep s k x).host = s.host ∧ (setStep s k x).resources = s.resources
    ∧ (setStep s k x).votes = s.votes ∧ (setStep s k x).holds = s.holds ∧ (setStep s k x).domains = s.domains
    ∧ (setStep s k x).grants = s.grants ∧ (setStep s k x).link = s.link ∧ (setStep s k x).fault = s.fault
    ∧ (setStep s k x).waiters = s.waiters ∧ (setStep s k x).queues = s.queues ∧ (setStep s k x).intake = s.intake
    ∧ (setStep s k x).events = s.events ∧ (setStep s k x).pending = s.pending := by
  simp [setStep]

@[simp] theorem placeRequest_frame (s : State) (q : Requester) (r : Nat) :
    (placeRequest s q r).run = s.run ∧ (placeRequest s q r).host = s.host ∧ (placeRequest s q r).resources = s.resources
    ∧ (placeRequest s q r).votes = s.votes ∧ (placeRequest s q r).holds = s.holds ∧ (placeRequest s q r).domains = s.domains
    ∧ (placeRequest s q r).grants = s.grants ∧ (placeRequest s q r).steps = s.steps ∧ (placeRequest s q r).fault = s.fault
    ∧ (placeRequest s q r).waiters = s.waiters ∧ (placeRequest s q r).queues = s.queues ∧ (placeRequest s q r).intake = s.intake
    ∧ (placeRequest s q r).events = s.events ∧ (placeRequest s q r).pending = s.pending := by
  simp [placeRequest]

@[simp] theorem removeRequest_frame (s : State) (q : Requester) :
    (removeRequest s q).run = s.run ∧ (removeRequest s q).host = s.host ∧ (removeRequest s q).resources = s.resources
    ∧ (removeRequest s q).votes = s.votes ∧ (removeRequest s q).holds = s.holds ∧ (removeRequest s q).domains = s.domains
    ∧ (removeRequest s q).grants = s.grants ∧ (removeRequest s q).steps = s.steps ∧ (removeRequest s q).fault = s.fault
    ∧ (removeRequest s q).waiters = s.waiters ∧ (removeRequest s q).queues = s.queues ∧ (removeRequest s q).intake = s.intake
    ∧ (removeRequest s q).events = s.events ∧ (removeRequest s q).pending = s.pending := by
  simp [removeRequest]

@[simp] theorem detachRequester_frame (s : State) (q : Requester) :
    (detachRequester s q).run = s.run ∧ (detachRequester s q).host = s.host ∧ (detachRequester s q).resources = s.resources
    ∧ (detachRequester s q).votes = s.votes ∧ (detachRequester s q).holds = s.holds ∧ (detachRequester s q).domains = s.domains
    ∧ (detachRequester s q).grants = s.grants ∧ (detachRequester s q).steps = s.steps ∧ (detachRequester s q).fault = s.fault
    ∧ (detachRequester s q).waiters = s.waiters ∧ (detachRequester s q).queues = s.queues
    ∧ (detachRequester s q).intake = s.intake ∧ (detachRequester s q).events = s.events
    ∧ (detachRequester s q).pending = s.pending := by
  simp [detachRequester]

@[simp] theorem releaseRequester_frame (s : State) (q : Requester) :
    (releaseRequester s q).run = s.run ∧ (releaseRequester s q).host = s.host ∧ (releaseRequester s q).resources = s.resources
    ∧ (releaseRequester s q).votes = s.votes ∧ (releaseRequester s q).holds = s.holds ∧ (releaseRequester s q).domains = s.domains
    ∧ (releaseRequester s q).grants = s.grants ∧ (releaseRequester s q).steps = s.steps ∧ (releaseRequester s q).fault = s.fault
    ∧ (releaseRequester s q).waiters = s.waiters ∧ (releaseRequester s q).queues = s.queues
    ∧ (releaseRequester s q).intake = s.intake ∧ (releaseRequester s q).events = s.events
    ∧ (releaseRequester s q).pending = s.pending := by
  simp [releaseRequester]

@[simp] theorem askWrite_frame (s : State) (o : WriteOwner) (a : BitVec 64) (data : List Byte) :
    (askWrite s o a data).run = s.run ∧ (askWrite s o a data).resources = s.resources ∧ (askWrite s o a data).votes = s.votes
    ∧ (askWrite s o a data).holds = s.holds ∧ (askWrite s o a data).domains = s.domains ∧ (askWrite s o a data).grants = s.grants
    ∧ (askWrite s o a data).steps = s.steps ∧ (askWrite s o a data).link = s.link ∧ (askWrite s o a data).fault = s.fault
    ∧ (askWrite s o a data).waiters = s.waiters ∧ (askWrite s o a data).queues = s.queues
    ∧ (askWrite s o a data).intake = s.intake ∧ (askWrite s o a data).events = s.events
    ∧ (askWrite s o a data).pending = s.pending := by
  simp [askWrite]

@[simp] theorem killWrites_frame (s : State) (o : WriteOwner) :
    (killWrites s o).run = s.run ∧ (killWrites s o).resources = s.resources ∧ (killWrites s o).votes = s.votes
    ∧ (killWrites s o).holds = s.holds ∧ (killWrites s o).domains = s.domains ∧ (killWrites s o).grants = s.grants
    ∧ (killWrites s o).steps = s.steps ∧ (killWrites s o).link = s.link ∧ (killWrites s o).fault = s.fault
    ∧ (killWrites s o).waiters = s.waiters ∧ (killWrites s o).queues = s.queues ∧ (killWrites s o).intake = s.intake
    ∧ (killWrites s o).events = s.events ∧ (killWrites s o).pending = s.pending := by
  simp [killWrites]

@[simp] theorem killAllWrites_frame (s : State) :
    (killAllWrites s).run = s.run ∧ (killAllWrites s).resources = s.resources ∧ (killAllWrites s).votes = s.votes
    ∧ (killAllWrites s).holds = s.holds ∧ (killAllWrites s).domains = s.domains ∧ (killAllWrites s).grants = s.grants
    ∧ (killAllWrites s).steps = s.steps ∧ (killAllWrites s).link = s.link ∧ (killAllWrites s).fault = s.fault
    ∧ (killAllWrites s).waiters = s.waiters ∧ (killAllWrites s).queues = s.queues ∧ (killAllWrites s).intake = s.intake
    ∧ (killAllWrites s).events = s.events ∧ (killAllWrites s).pending = s.pending := by
  simp [killAllWrites]

@[simp] theorem freeStep_frame (s : State) (k : Nat) :
    (freeStep s k).run = s.run ∧ (freeStep s k).host = s.host ∧ (freeStep s k).resources = s.resources
    ∧ (freeStep s k).votes = s.votes ∧ (freeStep s k).holds = s.holds ∧ (freeStep s k).domains = s.domains
    ∧ (freeStep s k).grants = s.grants ∧ (freeStep s k).fault = s.fault ∧ (freeStep s k).waiters = s.waiters
    ∧ (freeStep s k).queues = s.queues ∧ (freeStep s k).intake = s.intake ∧ (freeStep s k).events = s.events
    ∧ (freeStep s k).pending = s.pending := by
  simp [freeStep]

@[simp] theorem recordGoal_frame (s : State) (st : Step) :
    (recordGoal s st).run = s.run ∧ (recordGoal s st).host = s.host ∧ (recordGoal s st).votes = s.votes
    ∧ (recordGoal s st).holds = s.holds ∧ (recordGoal s st).domains = s.domains ∧ (recordGoal s st).grants = s.grants
    ∧ (recordGoal s st).steps = s.steps ∧ (recordGoal s st).link = s.link ∧ (recordGoal s st).fault = s.fault
    ∧ (recordGoal s st).waiters = s.waiters ∧ (recordGoal s st).queues = s.queues ∧ (recordGoal s st).intake = s.intake
    ∧ (recordGoal s st).events = s.events ∧ (recordGoal s st).pending = s.pending := by
  simp [recordGoal]

@[simp] theorem restartLease_frame (s : State) (d : Domain) :
    (restartLease s d).run = s.run ∧ (restartLease s d).host = s.host ∧ (restartLease s d).resources = s.resources
    ∧ (restartLease s d).votes = s.votes ∧ (restartLease s d).holds = s.holds ∧ (restartLease s d).grants = s.grants
    ∧ (restartLease s d).steps = s.steps ∧ (restartLease s d).link = s.link ∧ (restartLease s d).fault = s.fault
    ∧ (restartLease s d).waiters = s.waiters ∧ (restartLease s d).queues = s.queues ∧ (restartLease s d).intake = s.intake
    ∧ (restartLease s d).events = s.events ∧ (restartLease s d).pending = s.pending := by
  simp only [restartLease]; (repeat' split) <;> simp

@[simp] theorem judgeConditions_frame (s : State) (rs : List Nat) :
    (judgeConditions s rs).run = s.run ∧ (judgeConditions s rs).host = s.host ∧ (judgeConditions s rs).votes = s.votes
    ∧ (judgeConditions s rs).holds = s.holds ∧ (judgeConditions s rs).domains = s.domains
    ∧ (judgeConditions s rs).grants = s.grants ∧ (judgeConditions s rs).steps = s.steps ∧ (judgeConditions s rs).link = s.link
    ∧ (judgeConditions s rs).fault = s.fault ∧ (judgeConditions s rs).waiters = s.waiters
    ∧ (judgeConditions s rs).queues = s.queues ∧ (judgeConditions s rs).intake = s.intake
    ∧ (judgeConditions s rs).events = s.events ∧ (judgeConditions s rs).pending = s.pending := by
  simp [judgeConditions]

@[simp] theorem withdrawStep_frame (s : State) (k : Nat) (st : Step) :
    (withdrawStep s k st).run = s.run ∧ (withdrawStep s k st).host = s.host ∧ (withdrawStep s k st).votes = s.votes
    ∧ (withdrawStep s k st).holds = s.holds ∧ (withdrawStep s k st).domains = s.domains ∧ (withdrawStep s k st).grants = s.grants
    ∧ (withdrawStep s k st).fault = s.fault ∧ (withdrawStep s k st).waiters = s.waiters ∧ (withdrawStep s k st).queues = s.queues
    ∧ (withdrawStep s k st).intake = s.intake ∧ (withdrawStep s k st).events = s.events
    ∧ (withdrawStep s k st).pending = s.pending := by
  simp [withdrawStep]

@[simp] theorem withdrawChanged_frame (s : State) (rs : List Nat) :
    (withdrawChanged s rs).run = s.run ∧ (withdrawChanged s rs).host = s.host ∧ (withdrawChanged s rs).votes = s.votes
    ∧ (withdrawChanged s rs).holds = s.holds ∧ (withdrawChanged s rs).domains = s.domains
    ∧ (withdrawChanged s rs).grants = s.grants ∧ (withdrawChanged s rs).fault = s.fault
    ∧ (withdrawChanged s rs).waiters = s.waiters ∧ (withdrawChanged s rs).queues = s.queues
    ∧ (withdrawChanged s rs).intake = s.intake ∧ (withdrawChanged s rs).events = s.events
    ∧ (withdrawChanged s rs).pending = s.pending := by
  refine ⟨foldl_keeps State.run _ (fun _ _ => by simp) _ _, foldl_keeps State.host _ (fun _ _ => by simp) _ _, foldl_keeps State.votes _ (fun _ _ => by simp) _ _, foldl_keeps State.holds _ (fun _ _ => by simp) _ _, foldl_keeps State.domains _ (fun _ _ => by simp) _ _, foldl_keeps State.grants _ (fun _ _ => by simp) _ _, foldl_keeps State.fault _ (fun _ _ => by simp) _ _, foldl_keeps State.waiters _ (fun _ _ => by simp) _ _, foldl_keeps State.queues _ (fun _ _ => by simp) _ _, foldl_keeps State.intake _ (fun _ _ => by simp) _ _, foldl_keeps State.events _ (fun _ _ => by simp) _ _, foldl_keeps State.pending _ (fun _ _ => by simp) _ _⟩

@[simp] theorem followTargets_frame (s : State) (before : State) (touched : List Nat) :
    (followTargets before s touched).state.run = s.run ∧ (followTargets before s touched).state.host = s.host
    ∧ (followTargets before s touched).state.votes = s.votes ∧ (followTargets before s touched).state.holds = s.holds
    ∧ (followTargets before s touched).state.domains = s.domains ∧ (followTargets before s touched).state.grants = s.grants
    ∧ (followTargets before s touched).state.fault = s.fault ∧ (followTargets before s touched).state.waiters = s.waiters
    ∧ (followTargets before s touched).state.queues = s.queues ∧ (followTargets before s touched).state.intake = s.intake
    ∧ (followTargets before s touched).state.events = s.events ∧ (followTargets before s touched).state.pending = s.pending := by
  simp [followTargets]

end Sys2Proof.Machine
end

