-- ==== Sys2Proof/Laws/Posting.lean ====
section
/-! SUPPORT. What posting, events, waiters and queue halts leave as they were. -/

namespace Sys2Proof.Machine

@[simp] theorem postCompletion_frame (s : State) (held : Bool) (c : Completion) :
    (postCompletion s held c).run = s.run ∧ (postCompletion s held c).resources = s.resources
    ∧ (postCompletion s held c).votes = s.votes ∧ (postCompletion s held c).holds = s.holds
    ∧ (postCompletion s held c).domains = s.domains ∧ (postCompletion s held c).grants = s.grants
    ∧ (postCompletion s held c).steps = s.steps ∧ (postCompletion s held c).link = s.link
    ∧ (postCompletion s held c).fault = s.fault ∧ (postCompletion s held c).waiters = s.waiters
    ∧ (postCompletion s held c).intake = s.intake ∧ (postCompletion s held c).events = s.events
    ∧ (postCompletion s held c).pending = s.pending := by
  simp only [postCompletion]; (repeat' split) <;> simp

@[simp] theorem handEvent_frame (s : State) (e : Event) :
    (handEvent s e).run = s.run ∧ (handEvent s e).resources = s.resources ∧ (handEvent s e).votes = s.votes
    ∧ (handEvent s e).holds = s.holds ∧ (handEvent s e).domains = s.domains ∧ (handEvent s e).grants = s.grants
    ∧ (handEvent s e).steps = s.steps ∧ (handEvent s e).link = s.link ∧ (handEvent s e).fault = s.fault
    ∧ (handEvent s e).waiters = s.waiters ∧ (handEvent s e).queues = s.queues ∧ (handEvent s e).intake = s.intake
    ∧ (handEvent s e).pending = s.pending := by
  simp only [handEvent]; (repeat' split) <;> simp

@[simp] theorem voidFetch_frame (s : State) (d : Domain) :
    (voidFetch s d).run = s.run ∧ (voidFetch s d).host = s.host ∧ (voidFetch s d).resources = s.resources
    ∧ (voidFetch s d).votes = s.votes ∧ (voidFetch s d).holds = s.holds ∧ (voidFetch s d).domains = s.domains
    ∧ (voidFetch s d).grants = s.grants ∧ (voidFetch s d).steps = s.steps ∧ (voidFetch s d).link = s.link
    ∧ (voidFetch s d).fault = s.fault ∧ (voidFetch s d).waiters = s.waiters ∧ (voidFetch s d).queues = s.queues
    ∧ (voidFetch s d).events = s.events ∧ (voidFetch s d).pending = s.pending := by
  simp [voidFetch]

@[simp] theorem createWaiter_frame (s : State) (w : Waiter) :
    (createWaiter s w).run = s.run ∧ (createWaiter s w).host = s.host ∧ (createWaiter s w).resources = s.resources
    ∧ (createWaiter s w).votes = s.votes ∧ (createWaiter s w).holds = s.holds ∧ (createWaiter s w).domains = s.domains
    ∧ (createWaiter s w).grants = s.grants ∧ (createWaiter s w).steps = s.steps ∧ (createWaiter s w).fault = s.fault
    ∧ (createWaiter s w).intake = s.intake ∧ (createWaiter s w).events = s.events ∧ (createWaiter s w).pending = s.pending := by
  simp only [createWaiter]; (repeat' split) <;> simp

@[simp] theorem dropWaiter_frame (s : State) (k : Nat) :
    (dropWaiter s k).run = s.run ∧ (dropWaiter s k).host = s.host ∧ (dropWaiter s k).resources = s.resources
    ∧ (dropWaiter s k).votes = s.votes ∧ (dropWaiter s k).holds = s.holds ∧ (dropWaiter s k).domains = s.domains
    ∧ (dropWaiter s k).grants = s.grants ∧ (dropWaiter s k).steps = s.steps ∧ (dropWaiter s k).fault = s.fault
    ∧ (dropWaiter s k).queues = s.queues ∧ (dropWaiter s k).intake = s.intake ∧ (dropWaiter s k).events = s.events
    ∧ (dropWaiter s k).pending = s.pending := by
  simp [dropWaiter]

@[simp] theorem completeWith_frame (s : State) (k : Nat) (st : Status) (p : List Byte) :
    (completeWith s k st p).run = s.run ∧ (completeWith s k st p).resources = s.resources
    ∧ (completeWith s k st p).votes = s.votes ∧ (completeWith s k st p).holds = s.holds
    ∧ (completeWith s k st p).domains = s.domains ∧ (completeWith s k st p).grants = s.grants
    ∧ (completeWith s k st p).steps = s.steps ∧ (completeWith s k st p).fault = s.fault
    ∧ (completeWith s k st p).intake = s.intake ∧ (completeWith s k st p).events = s.events
    ∧ (completeWith s k st p).pending = s.pending := by
  simp only [completeWith]; (repeat' split) <;> simp

@[simp] theorem completeWaiter_frame (s : State) (k : Nat) (st : Status) :
    (completeWaiter s k st).run = s.run ∧ (completeWaiter s k st).resources = s.resources
    ∧ (completeWaiter s k st).votes = s.votes ∧ (completeWaiter s k st).holds = s.holds
    ∧ (completeWaiter s k st).domains = s.domains ∧ (completeWaiter s k st).grants = s.grants
    ∧ (completeWaiter s k st).steps = s.steps ∧ (completeWaiter s k st).fault = s.fault
    ∧ (completeWaiter s k st).intake = s.intake ∧ (completeWaiter s k st).events = s.events
    ∧ (completeWaiter s k st).pending = s.pending := by
  simp [completeWaiter]

@[simp] theorem completeEntries_frame (s : State) (ks : List Nat) (st : Status) :
    (completeEntries s ks st).run = s.run ∧ (completeEntries s ks st).resources = s.resources
    ∧ (completeEntries s ks st).votes = s.votes ∧ (completeEntries s ks st).holds = s.holds
    ∧ (completeEntries s ks st).domains = s.domains ∧ (completeEntries s ks st).grants = s.grants
    ∧ (completeEntries s ks st).steps = s.steps ∧ (completeEntries s ks st).fault = s.fault
    ∧ (completeEntries s ks st).intake = s.intake ∧ (completeEntries s ks st).events = s.events
    ∧ (completeEntries s ks st).pending = s.pending := by
  refine ⟨foldl_keeps State.run _ (fun _ _ => by simp) _ _, foldl_keeps State.resources _ (fun _ _ => by simp) _ _, foldl_keeps State.votes _ (fun _ _ => by simp) _ _, foldl_keeps State.holds _ (fun _ _ => by simp) _ _, foldl_keeps State.domains _ (fun _ _ => by simp) _ _, foldl_keeps State.grants _ (fun _ _ => by simp) _ _, foldl_keeps State.steps _ (fun _ _ => by simp) _ _, foldl_keeps State.fault _ (fun _ _ => by simp) _ _, foldl_keeps State.intake _ (fun _ _ => by simp) _ _, foldl_keeps State.events _ (fun _ _ => by simp) _ _, foldl_keeps State.pending _ (fun _ _ => by simp) _ _⟩

@[simp] theorem completeWhere_frame (s : State) (p : Waiter → Bool) (st : Status) :
    (completeWhere s p st).run = s.run ∧ (completeWhere s p st).resources = s.resources ∧ (completeWhere s p st).votes = s.votes
    ∧ (completeWhere s p st).holds = s.holds ∧ (completeWhere s p st).domains = s.domains
    ∧ (completeWhere s p st).grants = s.grants ∧ (completeWhere s p st).steps = s.steps ∧ (completeWhere s p st).fault = s.fault
    ∧ (completeWhere s p st).intake = s.intake ∧ (completeWhere s p st).events = s.events
    ∧ (completeWhere s p st).pending = s.pending := by
  simp [completeWhere]

/-- What the dropping of some waiters leaves as it was. -/
@[simp] theorem dropWaiters_frame (s : State) (ks : List Nat) :
    (ks.foldl dropWaiter s).run = s.run ∧ (ks.foldl dropWaiter s).host = s.host ∧ (ks.foldl dropWaiter s).resources = s.resources
    ∧ (ks.foldl dropWaiter s).votes = s.votes ∧ (ks.foldl dropWaiter s).holds = s.holds
    ∧ (ks.foldl dropWaiter s).domains = s.domains ∧ (ks.foldl dropWaiter s).grants = s.grants
    ∧ (ks.foldl dropWaiter s).steps = s.steps ∧ (ks.foldl dropWaiter s).fault = s.fault
    ∧ (ks.foldl dropWaiter s).queues = s.queues ∧ (ks.foldl dropWaiter s).intake = s.intake
    ∧ (ks.foldl dropWaiter s).events = s.events ∧ (ks.foldl dropWaiter s).pending = s.pending := by
  refine ⟨foldl_keeps State.run _ (fun _ _ => by simp) _ _, foldl_keeps State.host _ (fun _ _ => by simp) _ _, foldl_keeps State.resources _ (fun _ _ => by simp) _ _, foldl_keeps State.votes _ (fun _ _ => by simp) _ _, foldl_keeps State.holds _ (fun _ _ => by simp) _ _, foldl_keeps State.domains _ (fun _ _ => by simp) _ _, foldl_keeps State.grants _ (fun _ _ => by simp) _ _, foldl_keeps State.steps _ (fun _ _ => by simp) _ _, foldl_keeps State.fault _ (fun _ _ => by simp) _ _, foldl_keeps State.queues _ (fun _ _ => by simp) _ _, foldl_keeps State.intake _ (fun _ _ => by simp) _ _, foldl_keeps State.events _ (fun _ _ => by simp) _ _, foldl_keeps State.pending _ (fun _ _ => by simp) _ _⟩

@[simp] theorem discardWaiters_frame (s : State) (d : Domain) :
    (discardWaiters s d).run = s.run ∧ (discardWaiters s d).host = s.host ∧ (discardWaiters s d).resources = s.resources
    ∧ (discardWaiters s d).votes = s.votes ∧ (discardWaiters s d).holds = s.holds ∧ (discardWaiters s d).domains = s.domains
    ∧ (discardWaiters s d).grants = s.grants ∧ (discardWaiters s d).steps = s.steps ∧ (discardWaiters s d).fault = s.fault
    ∧ (discardWaiters s d).intake = s.intake ∧ (discardWaiters s d).events = s.events ∧ (discardWaiters s d).pending = s.pending := by
  simp [discardWaiters]

@[simp] theorem judgeReports_frame (s : State) (rs fs : List Nat) :
    (judgeReports s rs fs).run = s.run ∧ (judgeReports s rs fs).resources = s.resources ∧ (judgeReports s rs fs).votes = s.votes
    ∧ (judgeReports s rs fs).holds = s.holds ∧ (judgeReports s rs fs).domains = s.domains
    ∧ (judgeReports s rs fs).grants = s.grants ∧ (judgeReports s rs fs).steps = s.steps ∧ (judgeReports s rs fs).fault = s.fault
    ∧ (judgeReports s rs fs).intake = s.intake ∧ (judgeReports s rs fs).events = s.events
    ∧ (judgeReports s rs fs).pending = s.pending := by
  simp [judgeReports]

@[simp] theorem haltQueue_frame (s : State) (d : Domain) (h : HaltReason) :
    (haltQueue s d h).run = s.run ∧ (haltQueue s d h).resources = s.resources ∧ (haltQueue s d h).votes = s.votes
    ∧ (haltQueue s d h).holds = s.holds ∧ (haltQueue s d h).domains = s.domains ∧ (haltQueue s d h).grants = s.grants
    ∧ (haltQueue s d h).steps = s.steps ∧ (haltQueue s d h).fault = s.fault ∧ (haltQueue s d h).pending = s.pending := by
  simp [haltQueue]

end Sys2Proof.Machine
end

