-- ==== Sys2Proof/Laws/FaultUnit.lean ====
section
/-! SUPPORT. What the Fault Unit's operations leave as they were. -/

namespace Sys2Proof.Machine

@[simp] theorem placeUrgent_frame (s : State) :
    (placeUrgent s).run = s.run ∧ (placeUrgent s).host = s.host ∧ (placeUrgent s).resources = s.resources
    ∧ (placeUrgent s).votes = s.votes ∧ (placeUrgent s).holds = s.holds ∧ (placeUrgent s).domains = s.domains
    ∧ (placeUrgent s).grants = s.grants ∧ (placeUrgent s).steps = s.steps ∧ (placeUrgent s).fault = s.fault
    ∧ (placeUrgent s).waiters = s.waiters ∧ (placeUrgent s).queues = s.queues ∧ (placeUrgent s).intake = s.intake
    ∧ (placeUrgent s).events = s.events ∧ (placeUrgent s).pending = s.pending := by
  simp only [placeUrgent]; (repeat' split) <;> simp

@[simp] theorem appendCut_frame (s : State) (r : Nat) :
    (appendCut s r).run = s.run ∧ (appendCut s r).host = s.host ∧ (appendCut s r).resources = s.resources
    ∧ (appendCut s r).votes = s.votes ∧ (appendCut s r).holds = s.holds ∧ (appendCut s r).domains = s.domains
    ∧ (appendCut s r).grants = s.grants ∧ (appendCut s r).steps = s.steps ∧ (appendCut s r).waiters = s.waiters
    ∧ (appendCut s r).queues = s.queues ∧ (appendCut s r).intake = s.intake ∧ (appendCut s r).events = s.events
    ∧ (appendCut s r).pending = s.pending := by
  simp only [appendCut]; (repeat' split) <;> simp

@[simp] theorem appendCuts_frame (s : State) (rs : List Nat) :
    (rs.foldl appendCut s).run = s.run ∧ (rs.foldl appendCut s).host = s.host ∧ (rs.foldl appendCut s).resources = s.resources
    ∧ (rs.foldl appendCut s).votes = s.votes ∧ (rs.foldl appendCut s).holds = s.holds ∧ (rs.foldl appendCut s).domains = s.domains
    ∧ (rs.foldl appendCut s).grants = s.grants ∧ (rs.foldl appendCut s).steps = s.steps
    ∧ (rs.foldl appendCut s).waiters = s.waiters ∧ (rs.foldl appendCut s).queues = s.queues
    ∧ (rs.foldl appendCut s).intake = s.intake ∧ (rs.foldl appendCut s).events = s.events
    ∧ (rs.foldl appendCut s).pending = s.pending := by
  refine ⟨foldl_keeps State.run _ (fun _ _ => by simp) _ _, foldl_keeps State.host _ (fun _ _ => by simp) _ _, foldl_keeps State.resources _ (fun _ _ => by simp) _ _, foldl_keeps State.votes _ (fun _ _ => by simp) _ _, foldl_keeps State.holds _ (fun _ _ => by simp) _ _, foldl_keeps State.domains _ (fun _ _ => by simp) _ _, foldl_keeps State.grants _ (fun _ _ => by simp) _ _, foldl_keeps State.steps _ (fun _ _ => by simp) _ _, foldl_keeps State.waiters _ (fun _ _ => by simp) _ _, foldl_keeps State.queues _ (fun _ _ => by simp) _ _, foldl_keeps State.intake _ (fun _ _ => by simp) _ _, foldl_keeps State.events _ (fun _ _ => by simp) _ _, foldl_keeps State.pending _ (fun _ _ => by simp) _ _⟩

@[simp] theorem popCut_frame (s : State) :
    (popCut s).run = s.run ∧ (popCut s).host = s.host ∧ (popCut s).resources = s.resources ∧ (popCut s).votes = s.votes
    ∧ (popCut s).holds = s.holds ∧ (popCut s).domains = s.domains ∧ (popCut s).grants = s.grants ∧ (popCut s).steps = s.steps
    ∧ (popCut s).waiters = s.waiters ∧ (popCut s).queues = s.queues ∧ (popCut s).intake = s.intake ∧ (popCut s).events = s.events
    ∧ (popCut s).pending = s.pending := by
  simp [popCut]

@[simp] theorem cancelSteps_frame (s : State) (rs : List Nat) :
    (cancelSteps s rs).run = s.run ∧ (cancelSteps s rs).host = s.host ∧ (cancelSteps s rs).resources = s.resources
    ∧ (cancelSteps s rs).votes = s.votes ∧ (cancelSteps s rs).holds = s.holds ∧ (cancelSteps s rs).domains = s.domains
    ∧ (cancelSteps s rs).grants = s.grants ∧ (cancelSteps s rs).fault = s.fault ∧ (cancelSteps s rs).waiters = s.waiters
    ∧ (cancelSteps s rs).queues = s.queues ∧ (cancelSteps s rs).intake = s.intake ∧ (cancelSteps s rs).events = s.events
    ∧ (cancelSteps s rs).pending = s.pending := by
  refine ⟨foldl_keeps State.run _ (fun _ _ => by simp) _ _, foldl_keeps State.host _ (fun _ _ => by simp) _ _, foldl_keeps State.resources _ (fun _ _ => by simp) _ _, foldl_keeps State.votes _ (fun _ _ => by simp) _ _, foldl_keeps State.holds _ (fun _ _ => by simp) _ _, foldl_keeps State.domains _ (fun _ _ => by simp) _ _, foldl_keeps State.grants _ (fun _ _ => by simp) _ _, foldl_keeps State.fault _ (fun _ _ => by simp) _ _, foldl_keeps State.waiters _ (fun _ _ => by simp) _ _, foldl_keeps State.queues _ (fun _ _ => by simp) _ _, foldl_keeps State.intake _ (fun _ _ => by simp) _ _, foldl_keeps State.events _ (fun _ _ => by simp) _ _, foldl_keeps State.pending _ (fun _ _ => by simp) _ _⟩

@[simp] theorem withdrawBarred_frame (s : State) (k : Nat) (st : Step) :
    (withdrawBarred s k st).run = s.run ∧ (withdrawBarred s k st).host = s.host ∧ (withdrawBarred s k st).votes = s.votes
    ∧ (withdrawBarred s k st).holds = s.holds ∧ (withdrawBarred s k st).domains = s.domains
    ∧ (withdrawBarred s k st).grants = s.grants ∧ (withdrawBarred s k st).fault = s.fault
    ∧ (withdrawBarred s k st).waiters = s.waiters ∧ (withdrawBarred s k st).queues = s.queues
    ∧ (withdrawBarred s k st).intake = s.intake ∧ (withdrawBarred s k st).events = s.events
    ∧ (withdrawBarred s k st).pending = s.pending := by
  simp only [withdrawBarred]; (repeat' split) <;> simp

@[simp] theorem withdrawBarredSteps_frame (s : State) :
    (withdrawBarredSteps s).run = s.run ∧ (withdrawBarredSteps s).host = s.host ∧ (withdrawBarredSteps s).votes = s.votes
    ∧ (withdrawBarredSteps s).holds = s.holds ∧ (withdrawBarredSteps s).domains = s.domains
    ∧ (withdrawBarredSteps s).grants = s.grants ∧ (withdrawBarredSteps s).fault = s.fault
    ∧ (withdrawBarredSteps s).waiters = s.waiters ∧ (withdrawBarredSteps s).queues = s.queues
    ∧ (withdrawBarredSteps s).intake = s.intake ∧ (withdrawBarredSteps s).events = s.events
    ∧ (withdrawBarredSteps s).pending = s.pending := by
  refine ⟨foldl_keeps State.run _ (fun _ _ => by simp) _ _, foldl_keeps State.host _ (fun _ _ => by simp) _ _, foldl_keeps State.votes _ (fun _ _ => by simp) _ _, foldl_keeps State.holds _ (fun _ _ => by simp) _ _, foldl_keeps State.domains _ (fun _ _ => by simp) _ _, foldl_keeps State.grants _ (fun _ _ => by simp) _ _, foldl_keeps State.fault _ (fun _ _ => by simp) _ _, foldl_keeps State.waiters _ (fun _ _ => by simp) _ _, foldl_keeps State.queues _ (fun _ _ => by simp) _ _, foldl_keeps State.intake _ (fun _ _ => by simp) _ _, foldl_keeps State.events _ (fun _ _ => by simp) _ _, foldl_keeps State.pending _ (fun _ _ => by simp) _ _⟩

@[simp] theorem releaseAlignment_frame (s : State) (rs : List Nat) :
    (releaseAlignment s rs).run = s.run ∧ (releaseAlignment s rs).host = s.host ∧ (releaseAlignment s rs).votes = s.votes
    ∧ (releaseAlignment s rs).holds = s.holds ∧ (releaseAlignment s rs).domains = s.domains
    ∧ (releaseAlignment s rs).grants = s.grants ∧ (releaseAlignment s rs).steps = s.steps ∧ (releaseAlignment s rs).link = s.link
    ∧ (releaseAlignment s rs).fault = s.fault ∧ (releaseAlignment s rs).waiters = s.waiters
    ∧ (releaseAlignment s rs).queues = s.queues ∧ (releaseAlignment s rs).intake = s.intake
    ∧ (releaseAlignment s rs).events = s.events ∧ (releaseAlignment s rs).pending = s.pending := by
  simp [releaseAlignment]

@[simp] theorem lockRecords_frame (s : State) (r : Nat) (c : List Nat) :
    (lockRecords s r c).run = s.run ∧ (lockRecords s r c).host = s.host ∧ (lockRecords s r c).votes = s.votes
    ∧ (lockRecords s r c).holds = s.holds ∧ (lockRecords s r c).domains = s.domains ∧ (lockRecords s r c).grants = s.grants
    ∧ (lockRecords s r c).steps = s.steps ∧ (lockRecords s r c).link = s.link ∧ (lockRecords s r c).fault = s.fault
    ∧ (lockRecords s r c).waiters = s.waiters ∧ (lockRecords s r c).queues = s.queues ∧ (lockRecords s r c).intake = s.intake
    ∧ (lockRecords s r c).events = s.events ∧ (lockRecords s r c).pending = s.pending := by
  simp [lockRecords]

@[simp] theorem lockResource_frame (s : State) (r : Nat) :
    (lockResource s r).state.run = s.run ∧ (lockResource s r).state.votes = s.votes ∧ (lockResource s r).state.holds = s.holds
    ∧ (lockResource s r).state.domains = s.domains ∧ (lockResource s r).state.grants = s.grants
    ∧ (lockResource s r).state.intake = s.intake ∧ (lockResource s r).state.events = s.events
    ∧ (lockResource s r).state.pending = s.pending := by
  simp [lockResource]

@[simp] theorem enterSafe_frame (s : State) (r : Nat) (kind : FaultKind) :
    (enterSafe s r kind).state.run = s.run ∧ (enterSafe s r kind).state.votes = s.votes
    ∧ (enterSafe s r kind).state.holds = s.holds ∧ (enterSafe s r kind).state.domains = s.domains
    ∧ (enterSafe s r kind).state.grants = s.grants ∧ (enterSafe s r kind).state.intake = s.intake
    ∧ (enterSafe s r kind).state.events = s.events ∧ (enterSafe s r kind).state.pending = s.pending := by
  simp [enterSafe]

@[simp] theorem takeFault_frame (s : State) (r : Nat) (kind : FaultKind) (cls : FaultClass) (flags : Flags) (nak : Nat) :
    (takeFault s r kind cls flags nak).run = s.run ∧ (takeFault s r kind cls flags nak).votes = s.votes
    ∧ (takeFault s r kind cls flags nak).holds = s.holds ∧ (takeFault s r kind cls flags nak).domains = s.domains
    ∧ (takeFault s r kind cls flags nak).grants = s.grants ∧ (takeFault s r kind cls flags nak).intake = s.intake
    ∧ (takeFault s r kind cls flags nak).pending = s.pending := by
  simp only [takeFault]; (repeat' split) <;> simp

@[simp] theorem takeFlags_frame (s : State) (r : Nat) (flags : Flags) :
    (takeFlags s r flags).run = s.run ∧ (takeFlags s r flags).votes = s.votes ∧ (takeFlags s r flags).holds = s.holds
    ∧ (takeFlags s r flags).domains = s.domains ∧ (takeFlags s r flags).grants = s.grants
    ∧ (takeFlags s r flags).intake = s.intake ∧ (takeFlags s r flags).pending = s.pending := by
  simp only [takeFlags]; (repeat' split) <;> simp

@[simp] theorem startClear_frame (s : State) (r : Nat) :
    (startClear s r).run = s.run ∧ (startClear s r).host = s.host ∧ (startClear s r).votes = s.votes
    ∧ (startClear s r).holds = s.holds ∧ (startClear s r).domains = s.domains ∧ (startClear s r).grants = s.grants
    ∧ (startClear s r).steps = s.steps ∧ (startClear s r).waiters = s.waiters ∧ (startClear s r).queues = s.queues
    ∧ (startClear s r).intake = s.intake ∧ (startClear s r).events = s.events ∧ (startClear s r).pending = s.pending := by
  simp [startClear]

@[simp] theorem dropClear_frame (s : State) (r : Nat) :
    (dropClear s r).run = s.run ∧ (dropClear s r).host = s.host ∧ (dropClear s r).resources = s.resources
    ∧ (dropClear s r).votes = s.votes ∧ (dropClear s r).holds = s.holds ∧ (dropClear s r).domains = s.domains
    ∧ (dropClear s r).grants = s.grants ∧ (dropClear s r).steps = s.steps ∧ (dropClear s r).link = s.link
    ∧ (dropClear s r).waiters = s.waiters ∧ (dropClear s r).queues = s.queues ∧ (dropClear s r).intake = s.intake
    ∧ (dropClear s r).events = s.events ∧ (dropClear s r).pending = s.pending := by
  simp [dropClear]

@[simp] theorem clearAcked_frame (s : State) (r : Nat) :
    (clearAcked s r).run = s.run ∧ (clearAcked s r).votes = s.votes ∧ (clearAcked s r).holds = s.holds
    ∧ (clearAcked s r).domains = s.domains ∧ (clearAcked s r).grants = s.grants ∧ (clearAcked s r).intake = s.intake
    ∧ (clearAcked s r).events = s.events ∧ (clearAcked s r).pending = s.pending := by
  simp [clearAcked]

@[simp] theorem clearFailed_frame (s : State) (r : Nat) (kind : FaultKind) (nak : Nat) :
    (clearFailed s r kind nak).run = s.run ∧ (clearFailed s r kind nak).votes = s.votes
    ∧ (clearFailed s r kind nak).holds = s.holds ∧ (clearFailed s r kind nak).domains = s.domains
    ∧ (clearFailed s r kind nak).grants = s.grants ∧ (clearFailed s r kind nak).steps = s.steps
    ∧ (clearFailed s r kind nak).intake = s.intake ∧ (clearFailed s r kind nak).pending = s.pending := by
  simp [clearFailed]

end Sys2Proof.Machine
end

