-- ==== Sys2Proof/Laws/Sequencer.lean ====
section
/-! SUPPORT. What the Sequencer's operations leave as they were. -/

namespace Sys2Proof.Machine

@[simp] theorem placeStep_frame (s : State) (k r : Nat) (x : Resource) (m : Move) :
    (placeStep s k r x m).run = s.run ∧ (placeStep s k r x m).host = s.host ∧ (placeStep s k r x m).votes = s.votes
    ∧ (placeStep s k r x m).holds = s.holds ∧ (placeStep s k r x m).domains = s.domains ∧ (placeStep s k r x m).grants = s.grants
    ∧ (placeStep s k r x m).fault = s.fault ∧ (placeStep s k r x m).waiters = s.waiters ∧ (placeStep s k r x m).queues = s.queues
    ∧ (placeStep s k r x m).intake = s.intake ∧ (placeStep s k r x m).events = s.events
    ∧ (placeStep s k r x m).pending = s.pending := by
  simp [placeStep]

@[simp] theorem fillSlot_frame (s : State) (k : Nat) :
    (fillSlot s k).run = s.run ∧ (fillSlot s k).host = s.host ∧ (fillSlot s k).votes = s.votes ∧ (fillSlot s k).holds = s.holds
    ∧ (fillSlot s k).domains = s.domains ∧ (fillSlot s k).grants = s.grants ∧ (fillSlot s k).fault = s.fault
    ∧ (fillSlot s k).waiters = s.waiters ∧ (fillSlot s k).queues = s.queues ∧ (fillSlot s k).intake = s.intake
    ∧ (fillSlot s k).events = s.events ∧ (fillSlot s k).pending = s.pending := by
  simp only [fillSlot]; (repeat' split) <;> simp

@[simp] theorem allocate_frame (s : State) :
    (allocate s).run = s.run ∧ (allocate s).host = s.host ∧ (allocate s).votes = s.votes ∧ (allocate s).holds = s.holds
    ∧ (allocate s).domains = s.domains ∧ (allocate s).grants = s.grants ∧ (allocate s).fault = s.fault
    ∧ (allocate s).waiters = s.waiters ∧ (allocate s).queues = s.queues ∧ (allocate s).intake = s.intake
    ∧ (allocate s).events = s.events ∧ (allocate s).pending = s.pending := by
  refine ⟨foldl_keeps State.run _ (fun _ _ => by simp) _ _, foldl_keeps State.host _ (fun _ _ => by simp) _ _, foldl_keeps State.votes _ (fun _ _ => by simp) _ _, foldl_keeps State.holds _ (fun _ _ => by simp) _ _, foldl_keeps State.domains _ (fun _ _ => by simp) _ _, foldl_keeps State.grants _ (fun _ _ => by simp) _ _, foldl_keeps State.fault _ (fun _ _ => by simp) _ _, foldl_keeps State.waiters _ (fun _ _ => by simp) _ _, foldl_keeps State.queues _ (fun _ _ => by simp) _ _, foldl_keeps State.intake _ (fun _ _ => by simp) _ _, foldl_keeps State.events _ (fun _ _ => by simp) _ _, foldl_keeps State.pending _ (fun _ _ => by simp) _ _⟩

@[simp] theorem judgeAndReport_frame (s : State) (rs : List Nat) :
    (judgeAndReport s rs).run = s.run ∧ (judgeAndReport s rs).votes = s.votes ∧ (judgeAndReport s rs).holds = s.holds
    ∧ (judgeAndReport s rs).domains = s.domains ∧ (judgeAndReport s rs).grants = s.grants ∧ (judgeAndReport s rs).steps = s.steps
    ∧ (judgeAndReport s rs).fault = s.fault ∧ (judgeAndReport s rs).intake = s.intake ∧ (judgeAndReport s rs).events = s.events
    ∧ (judgeAndReport s rs).pending = s.pending := by
  simp [judgeAndReport]

@[simp] theorem endStep_frame (s : State) (k : Nat) (st : Step) :
    (endStep s k st).run = s.run ∧ (endStep s k st).votes = s.votes ∧ (endStep s k st).holds = s.holds
    ∧ (endStep s k st).domains = s.domains ∧ (endStep s k st).grants = s.grants ∧ (endStep s k st).fault = s.fault
    ∧ (endStep s k st).intake = s.intake ∧ (endStep s k st).events = s.events ∧ (endStep s k st).pending = s.pending := by
  simp only [endStep]; (repeat' split) <;> simp

@[simp] theorem enterHolding_frame (s : State) (k : Nat) (st : Step) :
    (enterHolding s k st).run = s.run ∧ (enterHolding s k st).votes = s.votes ∧ (enterHolding s k st).holds = s.holds
    ∧ (enterHolding s k st).domains = s.domains ∧ (enterHolding s k st).grants = s.grants ∧ (enterHolding s k st).fault = s.fault
    ∧ (enterHolding s k st).intake = s.intake ∧ (enterHolding s k st).events = s.events
    ∧ (enterHolding s k st).pending = s.pending := by
  simp only [enterHolding]; (repeat' split) <;> simp

@[simp] theorem stepAcked_frame (s : State) (k : Nat) (st : Step) :
    (stepAcked s k st).run = s.run ∧ (stepAcked s k st).votes = s.votes ∧ (stepAcked s k st).holds = s.holds
    ∧ (stepAcked s k st).domains = s.domains ∧ (stepAcked s k st).grants = s.grants ∧ (stepAcked s k st).fault = s.fault
    ∧ (stepAcked s k st).intake = s.intake ∧ (stepAcked s k st).events = s.events ∧ (stepAcked s k st).pending = s.pending := by
  simp only [stepAcked]; (repeat' split) <;> simp

@[simp] theorem takeSettled_frame (s : State) (r : Nat) :
    (takeSettled s r).run = s.run ∧ (takeSettled s r).votes = s.votes ∧ (takeSettled s r).holds = s.holds
    ∧ (takeSettled s r).domains = s.domains ∧ (takeSettled s r).grants = s.grants ∧ (takeSettled s r).fault = s.fault
    ∧ (takeSettled s r).intake = s.intake ∧ (takeSettled s r).events = s.events ∧ (takeSettled s r).pending = s.pending := by
  simp only [takeSettled]; (repeat' split) <;> simp

@[simp] theorem stepFails_frame (s : State) (k : Nat) (st : Step) (kind : FaultKind) (nak : Nat) :
    (stepFails s k st kind nak).run = s.run ∧ (stepFails s k st kind nak).votes = s.votes
    ∧ (stepFails s k st kind nak).holds = s.holds ∧ (stepFails s k st kind nak).domains = s.domains
    ∧ (stepFails s k st kind nak).grants = s.grants ∧ (stepFails s k st kind nak).intake = s.intake
    ∧ (stepFails s k st kind nak).pending = s.pending := by
  simp [stepFails]

@[simp] theorem withdrawRetry_frame (s : State) (k : Nat) (st : Step) :
    (withdrawRetry s k st).run = s.run ∧ (withdrawRetry s k st).votes = s.votes ∧ (withdrawRetry s k st).holds = s.holds
    ∧ (withdrawRetry s k st).domains = s.domains ∧ (withdrawRetry s k st).grants = s.grants
    ∧ (withdrawRetry s k st).fault = s.fault ∧ (withdrawRetry s k st).intake = s.intake ∧ (withdrawRetry s k st).events = s.events
    ∧ (withdrawRetry s k st).pending = s.pending := by
  simp only [withdrawRetry]; (repeat' split) <;> simp

@[simp] theorem stepAttemptFailed_frame (s : State) (k : Nat) (st : Step) (nak : Option Nat) :
    (stepAttemptFailed s k st nak).run = s.run ∧ (stepAttemptFailed s k st nak).votes = s.votes
    ∧ (stepAttemptFailed s k st nak).holds = s.holds ∧ (stepAttemptFailed s k st nak).domains = s.domains
    ∧ (stepAttemptFailed s k st nak).grants = s.grants ∧ (stepAttemptFailed s k st nak).intake = s.intake
    ∧ (stepAttemptFailed s k st nak).pending = s.pending := by
  simp only [stepAttemptFailed]; (repeat' split) <;> simp

@[simp] theorem issueStep_frame (s : State) (k : Nat) (st : Step) :
    (issueStep s k st).run = s.run ∧ (issueStep s k st).host = s.host ∧ (issueStep s k st).votes = s.votes
    ∧ (issueStep s k st).holds = s.holds ∧ (issueStep s k st).domains = s.domains ∧ (issueStep s k st).grants = s.grants
    ∧ (issueStep s k st).link = s.link ∧ (issueStep s k st).fault = s.fault ∧ (issueStep s k st).waiters = s.waiters
    ∧ (issueStep s k st).queues = s.queues ∧ (issueStep s k st).intake = s.intake ∧ (issueStep s k st).events = s.events
    ∧ (issueStep s k st).pending = s.pending := by
  simp only [issueStep]; (repeat' split) <;> simp

end Sys2Proof.Machine
end

