-- ==== Sys2Proof/Laws/Link.lean ====
section
/-! SUPPORT. What the Link Controller's operations leave as they were. -/

namespace Sys2Proof.Machine

@[simp] theorem sendFrame_frame (s : State) (q : Requester) (kind : TransactionKind) (r : Nat) (x : Resource) (frame : List Byte) :
    (sendFrame s q kind r x frame).run = s.run ∧ (sendFrame s q kind r x frame).host = s.host
    ∧ (sendFrame s q kind r x frame).resources = s.resources ∧ (sendFrame s q kind r x frame).votes = s.votes
    ∧ (sendFrame s q kind r x frame).holds = s.holds ∧ (sendFrame s q kind r x frame).domains = s.domains
    ∧ (sendFrame s q kind r x frame).grants = s.grants ∧ (sendFrame s q kind r x frame).steps = s.steps
    ∧ (sendFrame s q kind r x frame).fault = s.fault ∧ (sendFrame s q kind r x frame).waiters = s.waiters
    ∧ (sendFrame s q kind r x frame).queues = s.queues ∧ (sendFrame s q kind r x frame).intake = s.intake
    ∧ (sendFrame s q kind r x frame).events = s.events ∧ (sendFrame s q kind r x frame).pending = s.pending := by
  simp [sendFrame]

@[simp] theorem sendSet_frame (s : State) (q : Requester) (r : Nat) (x : Resource) (goal : Setting) :
    (sendSet s q r x goal).run = s.run ∧ (sendSet s q r x goal).host = s.host ∧ (sendSet s q r x goal).resources = s.resources
    ∧ (sendSet s q r x goal).votes = s.votes ∧ (sendSet s q r x goal).holds = s.holds ∧ (sendSet s q r x goal).domains = s.domains
    ∧ (sendSet s q r x goal).grants = s.grants ∧ (sendSet s q r x goal).steps = s.steps ∧ (sendSet s q r x goal).fault = s.fault
    ∧ (sendSet s q r x goal).waiters = s.waiters ∧ (sendSet s q r x goal).queues = s.queues
    ∧ (sendSet s q r x goal).intake = s.intake ∧ (sendSet s q r x goal).events = s.events
    ∧ (sendSet s q r x goal).pending = s.pending := by
  simp [sendSet]

@[simp] theorem sendSample_frame (s : State) (q : Requester) (r : Nat) (x : Resource) :
    (sendSample s q r x).run = s.run ∧ (sendSample s q r x).host = s.host ∧ (sendSample s q r x).resources = s.resources
    ∧ (sendSample s q r x).votes = s.votes ∧ (sendSample s q r x).holds = s.holds ∧ (sendSample s q r x).domains = s.domains
    ∧ (sendSample s q r x).grants = s.grants ∧ (sendSample s q r x).steps = s.steps ∧ (sendSample s q r x).fault = s.fault
    ∧ (sendSample s q r x).waiters = s.waiters ∧ (sendSample s q r x).queues = s.queues ∧ (sendSample s q r x).intake = s.intake
    ∧ (sendSample s q r x).events = s.events ∧ (sendSample s q r x).pending = s.pending := by
  simp [sendSample]

@[simp] theorem sendClear_frame (s : State) (q : Requester) (r : Nat) (x : Resource) :
    (sendClear s q r x).run = s.run ∧ (sendClear s q r x).host = s.host ∧ (sendClear s q r x).resources = s.resources
    ∧ (sendClear s q r x).votes = s.votes ∧ (sendClear s q r x).holds = s.holds ∧ (sendClear s q r x).domains = s.domains
    ∧ (sendClear s q r x).grants = s.grants ∧ (sendClear s q r x).steps = s.steps ∧ (sendClear s q r x).fault = s.fault
    ∧ (sendClear s q r x).waiters = s.waiters ∧ (sendClear s q r x).queues = s.queues ∧ (sendClear s q r x).intake = s.intake
    ∧ (sendClear s q r x).events = s.events ∧ (sendClear s q r x).pending = s.pending := by
  simp [sendClear]

@[simp] theorem grantPoll_frame (s : State) :
    (grantPoll s).run = s.run ∧ (grantPoll s).host = s.host ∧ (grantPoll s).resources = s.resources
    ∧ (grantPoll s).votes = s.votes ∧ (grantPoll s).holds = s.holds ∧ (grantPoll s).domains = s.domains
    ∧ (grantPoll s).grants = s.grants ∧ (grantPoll s).steps = s.steps ∧ (grantPoll s).fault = s.fault
    ∧ (grantPoll s).waiters = s.waiters ∧ (grantPoll s).queues = s.queues ∧ (grantPoll s).intake = s.intake
    ∧ (grantPoll s).events = s.events ∧ (grantPoll s).pending = s.pending := by
  simp only [grantPoll]; (repeat' split) <;> simp

@[simp] theorem serveRequest_frame (s : State) (q : Request) :
    (serveRequest s q).run = s.run ∧ (serveRequest s q).host = s.host ∧ (serveRequest s q).votes = s.votes
    ∧ (serveRequest s q).holds = s.holds ∧ (serveRequest s q).domains = s.domains ∧ (serveRequest s q).grants = s.grants
    ∧ (serveRequest s q).fault = s.fault ∧ (serveRequest s q).waiters = s.waiters ∧ (serveRequest s q).queues = s.queues
    ∧ (serveRequest s q).intake = s.intake ∧ (serveRequest s q).events = s.events ∧ (serveRequest s q).pending = s.pending := by
  simp only [serveRequest]; (repeat' split) <;> simp

@[simp] theorem grantLink_frame (s : State) :
    (grantLink s).run = s.run ∧ (grantLink s).host = s.host ∧ (grantLink s).votes = s.votes ∧ (grantLink s).holds = s.holds
    ∧ (grantLink s).domains = s.domains ∧ (grantLink s).grants = s.grants ∧ (grantLink s).fault = s.fault
    ∧ (grantLink s).waiters = s.waiters ∧ (grantLink s).queues = s.queues ∧ (grantLink s).intake = s.intake
    ∧ (grantLink s).events = s.events ∧ (grantLink s).pending = s.pending := by
  simp only [grantLink]; (repeat' split) <;> simp

@[simp] theorem recordSample_frame (s : State) (r : Nat) (reading : Reading) :
    (recordSample s r reading).run = s.run ∧ (recordSample s r reading).host = s.host ∧ (recordSample s r reading).votes = s.votes
    ∧ (recordSample s r reading).holds = s.holds ∧ (recordSample s r reading).domains = s.domains
    ∧ (recordSample s r reading).grants = s.grants ∧ (recordSample s r reading).steps = s.steps
    ∧ (recordSample s r reading).link = s.link ∧ (recordSample s r reading).fault = s.fault
    ∧ (recordSample s r reading).waiters = s.waiters ∧ (recordSample s r reading).queues = s.queues
    ∧ (recordSample s r reading).intake = s.intake ∧ (recordSample s r reading).events = s.events
    ∧ (recordSample s r reading).pending = s.pending := by
  simp [recordSample]

@[simp] theorem cutOutcome_frame (s : State) (o : LinkOutcome) :
    (cutOutcome s o).run = s.run ∧ (cutOutcome s o).resources = s.resources ∧ (cutOutcome s o).votes = s.votes
    ∧ (cutOutcome s o).holds = s.holds ∧ (cutOutcome s o).domains = s.domains ∧ (cutOutcome s o).grants = s.grants
    ∧ (cutOutcome s o).steps = s.steps ∧ (cutOutcome s o).waiters = s.waiters ∧ (cutOutcome s o).queues = s.queues
    ∧ (cutOutcome s o).intake = s.intake ∧ (cutOutcome s o).pending = s.pending := by
  simp only [cutOutcome]; (repeat' split) <;> simp

@[simp] theorem clearOutcome_frame (s : State) (r : Nat) (o : LinkOutcome) :
    (clearOutcome s r o).run = s.run ∧ (clearOutcome s r o).votes = s.votes ∧ (clearOutcome s r o).holds = s.holds
    ∧ (clearOutcome s r o).domains = s.domains ∧ (clearOutcome s r o).grants = s.grants ∧ (clearOutcome s r o).intake = s.intake
    ∧ (clearOutcome s r o).pending = s.pending := by
  simp only [clearOutcome]; (repeat' split) <;> simp

@[simp] theorem queryOutcome_frame (s : State) (k : Nat) (o : LinkOutcome) :
    (queryOutcome s k o).run = s.run ∧ (queryOutcome s k o).votes = s.votes ∧ (queryOutcome s k o).holds = s.holds
    ∧ (queryOutcome s k o).domains = s.domains ∧ (queryOutcome s k o).grants = s.grants ∧ (queryOutcome s k o).intake = s.intake
    ∧ (queryOutcome s k o).pending = s.pending := by
  simp only [queryOutcome]; (repeat' split) <;> simp

@[simp] theorem endPoll_frame (s : State) :
    (endPoll s).run = s.run ∧ (endPoll s).host = s.host ∧ (endPoll s).resources = s.resources ∧ (endPoll s).votes = s.votes
    ∧ (endPoll s).holds = s.holds ∧ (endPoll s).domains = s.domains ∧ (endPoll s).grants = s.grants ∧ (endPoll s).steps = s.steps
    ∧ (endPoll s).fault = s.fault ∧ (endPoll s).waiters = s.waiters ∧ (endPoll s).queues = s.queues
    ∧ (endPoll s).intake = s.intake ∧ (endPoll s).events = s.events ∧ (endPoll s).pending = s.pending := by
  simp [endPoll]

@[simp] theorem pollOutcome_frame (s : State) (o : LinkOutcome) :
    (pollOutcome s o).run = s.run ∧ (pollOutcome s o).votes = s.votes ∧ (pollOutcome s o).holds = s.holds
    ∧ (pollOutcome s o).domains = s.domains ∧ (pollOutcome s o).grants = s.grants ∧ (pollOutcome s o).intake = s.intake
    ∧ (pollOutcome s o).pending = s.pending := by
  simp only [pollOutcome]; (repeat' split) <;> simp

@[simp] theorem stepOutcome_frame (s : State) (k : Nat) (o : LinkOutcome) :
    (stepOutcome s k o).run = s.run ∧ (stepOutcome s k o).votes = s.votes ∧ (stepOutcome s k o).holds = s.holds
    ∧ (stepOutcome s k o).domains = s.domains ∧ (stepOutcome s k o).grants = s.grants ∧ (stepOutcome s k o).intake = s.intake
    ∧ (stepOutcome s k o).pending = s.pending := by
  simp only [stepOutcome]; (repeat' split) <;> simp

@[simp] theorem orphanOutcome_frame (s : State) (t : Transaction) (o : LinkOutcome) :
    (orphanOutcome s t o).run = s.run ∧ (orphanOutcome s t o).votes = s.votes ∧ (orphanOutcome s t o).holds = s.holds
    ∧ (orphanOutcome s t o).domains = s.domains ∧ (orphanOutcome s t o).grants = s.grants
    ∧ (orphanOutcome s t o).intake = s.intake ∧ (orphanOutcome s t o).pending = s.pending := by
  simp only [orphanOutcome]; (repeat' split) <;> simp

@[simp] theorem deliverOutcome_frame (s : State) (t : Transaction) (o : LinkOutcome) :
    (deliverOutcome s t o).run = s.run ∧ (deliverOutcome s t o).votes = s.votes ∧ (deliverOutcome s t o).holds = s.holds
    ∧ (deliverOutcome s t o).domains = s.domains ∧ (deliverOutcome s t o).grants = s.grants
    ∧ (deliverOutcome s t o).intake = s.intake ∧ (deliverOutcome s t o).pending = s.pending := by
  simp only [deliverOutcome]; (repeat' split) <;> simp

@[simp] theorem endTransaction_frame (s : State) (t : Transaction) (o : LinkOutcome) :
    (endTransaction s t o).run = s.run ∧ (endTransaction s t o).votes = s.votes ∧ (endTransaction s t o).holds = s.holds
    ∧ (endTransaction s t o).domains = s.domains ∧ (endTransaction s t o).grants = s.grants
    ∧ (endTransaction s t o).intake = s.intake ∧ (endTransaction s t o).pending = s.pending := by
  simp [endTransaction]

@[simp] theorem routeNotice_frame (s : State) (n : Notice) :
    (routeNotice s n).run = s.run ∧ (routeNotice s n).votes = s.votes ∧ (routeNotice s n).holds = s.holds
    ∧ (routeNotice s n).domains = s.domains ∧ (routeNotice s n).grants = s.grants ∧ (routeNotice s n).intake = s.intake
    ∧ (routeNotice s n).pending = s.pending := by
  simp only [routeNotice]; (repeat' split) <;> simp

@[simp] theorem stopLink_frame (s : State) :
    (stopLink s).run = s.run ∧ (stopLink s).host = s.host ∧ (stopLink s).resources = s.resources ∧ (stopLink s).votes = s.votes
    ∧ (stopLink s).holds = s.holds ∧ (stopLink s).domains = s.domains ∧ (stopLink s).grants = s.grants
    ∧ (stopLink s).steps = s.steps ∧ (stopLink s).fault = s.fault ∧ (stopLink s).waiters = s.waiters
    ∧ (stopLink s).queues = s.queues ∧ (stopLink s).intake = s.intake ∧ (stopLink s).events = s.events
    ∧ (stopLink s).pending = s.pending := by
  simp [stopLink]

@[simp] theorem failedLoadLink_frame (s : State) :
    (failedLoadLink s).run = s.run ∧ (failedLoadLink s).host = s.host ∧ (failedLoadLink s).resources = s.resources
    ∧ (failedLoadLink s).votes = s.votes ∧ (failedLoadLink s).holds = s.holds ∧ (failedLoadLink s).domains = s.domains
    ∧ (failedLoadLink s).grants = s.grants ∧ (failedLoadLink s).steps = s.steps ∧ (failedLoadLink s).fault = s.fault
    ∧ (failedLoadLink s).waiters = s.waiters ∧ (failedLoadLink s).queues = s.queues ∧ (failedLoadLink s).intake = s.intake
    ∧ (failedLoadLink s).events = s.events ∧ (failedLoadLink s).pending = s.pending := by
  simp [failedLoadLink]

@[simp] theorem voidTraffic_frame (s : State) (r : Nat) :
    (voidTraffic s r).run = s.run ∧ (voidTraffic s r).host = s.host ∧ (voidTraffic s r).resources = s.resources
    ∧ (voidTraffic s r).votes = s.votes ∧ (voidTraffic s r).holds = s.holds ∧ (voidTraffic s r).domains = s.domains
    ∧ (voidTraffic s r).grants = s.grants ∧ (voidTraffic s r).steps = s.steps ∧ (voidTraffic s r).fault = s.fault
    ∧ (voidTraffic s r).waiters = s.waiters ∧ (voidTraffic s r).queues = s.queues ∧ (voidTraffic s r).intake = s.intake
    ∧ (voidTraffic s r).events = s.events ∧ (voidTraffic s r).pending = s.pending := by
  simp only [voidTraffic]; (repeat' split) <;> simp

end Sys2Proof.Machine
end

