-- ==== Sys2Proof/Laws/Commands.lean ====
section
/-! SUPPORT. What the commands and their shared parts leave as they were. -/

namespace Sys2Proof.Machine

@[simp] theorem finishWith_frame (s : State) (t : Ticket) (st : Status) (p : List Byte) :
    (finishWith s t st p).run = s.run ∧ (finishWith s t st p).resources = s.resources ∧ (finishWith s t st p).votes = s.votes
    ∧ (finishWith s t st p).holds = s.holds ∧ (finishWith s t st p).domains = s.domains ∧ (finishWith s t st p).grants = s.grants
    ∧ (finishWith s t st p).steps = s.steps ∧ (finishWith s t st p).link = s.link ∧ (finishWith s t st p).fault = s.fault
    ∧ (finishWith s t st p).waiters = s.waiters ∧ (finishWith s t st p).intake = s.intake
    ∧ (finishWith s t st p).events = s.events ∧ (finishWith s t st p).pending = s.pending := by
  simp [finishWith]

@[simp] theorem finish_frame (s : State) (t : Ticket) (st : Status) :
    (finish s t st).run = s.run ∧ (finish s t st).resources = s.resources ∧ (finish s t st).votes = s.votes
    ∧ (finish s t st).holds = s.holds ∧ (finish s t st).domains = s.domains ∧ (finish s t st).grants = s.grants
    ∧ (finish s t st).steps = s.steps ∧ (finish s t st).link = s.link ∧ (finish s t st).fault = s.fault
    ∧ (finish s t st).waiters = s.waiters ∧ (finish s t st).intake = s.intake ∧ (finish s t st).events = s.events
    ∧ (finish s t st).pending = s.pending := by
  simp [finish]

@[simp] theorem writtenCells_frame (s : State) (d : Domain) (cells : List (Nat × Setting)) :
    (cells.foldl (fun t c => writeCell t d c.1 c.2) s).run = s.run
    ∧ (cells.foldl (fun t c => writeCell t d c.1 c.2) s).host = s.host
    ∧ (cells.foldl (fun t c => writeCell t d c.1 c.2) s).resources = s.resources
    ∧ (cells.foldl (fun t c => writeCell t d c.1 c.2) s).holds = s.holds
    ∧ (cells.foldl (fun t c => writeCell t d c.1 c.2) s).domains = s.domains
    ∧ (cells.foldl (fun t c => writeCell t d c.1 c.2) s).grants = s.grants
    ∧ (cells.foldl (fun t c => writeCell t d c.1 c.2) s).steps = s.steps
    ∧ (cells.foldl (fun t c => writeCell t d c.1 c.2) s).link = s.link
    ∧ (cells.foldl (fun t c => writeCell t d c.1 c.2) s).fault = s.fault
    ∧ (cells.foldl (fun t c => writeCell t d c.1 c.2) s).waiters = s.waiters
    ∧ (cells.foldl (fun t c => writeCell t d c.1 c.2) s).queues = s.queues
    ∧ (cells.foldl (fun t c => writeCell t d c.1 c.2) s).intake = s.intake
    ∧ (cells.foldl (fun t c => writeCell t d c.1 c.2) s).events = s.events
    ∧ (cells.foldl (fun t c => writeCell t d c.1 c.2) s).pending = s.pending := by
  refine ⟨foldl_keeps State.run _ (fun _ _ => by simp) _ _, foldl_keeps State.host _ (fun _ _ => by simp) _ _, foldl_keeps State.resources _ (fun _ _ => by simp) _ _, foldl_keeps State.holds _ (fun _ _ => by simp) _ _, foldl_keeps State.domains _ (fun _ _ => by simp) _ _, foldl_keeps State.grants _ (fun _ _ => by simp) _ _, foldl_keeps State.steps _ (fun _ _ => by simp) _ _, foldl_keeps State.link _ (fun _ _ => by simp) _ _, foldl_keeps State.fault _ (fun _ _ => by simp) _ _, foldl_keeps State.waiters _ (fun _ _ => by simp) _ _, foldl_keeps State.queues _ (fun _ _ => by simp) _ _, foldl_keeps State.intake _ (fun _ _ => by simp) _ _, foldl_keeps State.events _ (fun _ _ => by simp) _ _, foldl_keeps State.pending _ (fun _ _ => by simp) _ _⟩

@[simp] theorem droppedCells_frame (s : State) (d : Domain) (rs : List Nat) :
    (rs.foldl (fun t r => dropCell t d r) s).run = s.run ∧ (rs.foldl (fun t r => dropCell t d r) s).host = s.host
    ∧ (rs.foldl (fun t r => dropCell t d r) s).resources = s.resources ∧ (rs.foldl (fun t r => dropCell t d r) s).holds = s.holds
    ∧ (rs.foldl (fun t r => dropCell t d r) s).domains = s.domains ∧ (rs.foldl (fun t r => dropCell t d r) s).grants = s.grants
    ∧ (rs.foldl (fun t r => dropCell t d r) s).steps = s.steps ∧ (rs.foldl (fun t r => dropCell t d r) s).link = s.link
    ∧ (rs.foldl (fun t r => dropCell t d r) s).fault = s.fault ∧ (rs.foldl (fun t r => dropCell t d r) s).waiters = s.waiters
    ∧ (rs.foldl (fun t r => dropCell t d r) s).queues = s.queues ∧ (rs.foldl (fun t r => dropCell t d r) s).intake = s.intake
    ∧ (rs.foldl (fun t r => dropCell t d r) s).events = s.events ∧ (rs.foldl (fun t r => dropCell t d r) s).pending = s.pending := by
  refine ⟨foldl_keeps State.run _ (fun _ _ => by simp) _ _, foldl_keeps State.host _ (fun _ _ => by simp) _ _, foldl_keeps State.resources _ (fun _ _ => by simp) _ _, foldl_keeps State.holds _ (fun _ _ => by simp) _ _, foldl_keeps State.domains _ (fun _ _ => by simp) _ _, foldl_keeps State.grants _ (fun _ _ => by simp) _ _, foldl_keeps State.steps _ (fun _ _ => by simp) _ _, foldl_keeps State.link _ (fun _ _ => by simp) _ _, foldl_keeps State.fault _ (fun _ _ => by simp) _ _, foldl_keeps State.waiters _ (fun _ _ => by simp) _ _, foldl_keeps State.queues _ (fun _ _ => by simp) _ _, foldl_keeps State.intake _ (fun _ _ => by simp) _ _, foldl_keeps State.events _ (fun _ _ => by simp) _ _, foldl_keeps State.pending _ (fun _ _ => by simp) _ _⟩

@[simp] theorem writeCells_frame (s : State) (d : Domain) (cells : List (Nat × Setting)) :
    (writeCells s d cells).state.run = s.run ∧ (writeCells s d cells).state.host = s.host
    ∧ (writeCells s d cells).state.holds = s.holds ∧ (writeCells s d cells).state.domains = s.domains
    ∧ (writeCells s d cells).state.grants = s.grants ∧ (writeCells s d cells).state.fault = s.fault
    ∧ (writeCells s d cells).state.waiters = s.waiters ∧ (writeCells s d cells).state.queues = s.queues
    ∧ (writeCells s d cells).state.intake = s.intake ∧ (writeCells s d cells).state.events = s.events
    ∧ (writeCells s d cells).state.pending = s.pending := by
  simp [writeCells]

@[simp] theorem withdrawCells_frame (s : State) (d : Domain) (rs : List Nat) :
    (withdrawCells s d rs).state.run = s.run ∧ (withdrawCells s d rs).state.host = s.host
    ∧ (withdrawCells s d rs).state.holds = s.holds ∧ (withdrawCells s d rs).state.domains = s.domains
    ∧ (withdrawCells s d rs).state.grants = s.grants ∧ (withdrawCells s d rs).state.fault = s.fault
    ∧ (withdrawCells s d rs).state.waiters = s.waiters ∧ (withdrawCells s d rs).state.queues = s.queues
    ∧ (withdrawCells s d rs).state.intake = s.intake ∧ (withdrawCells s d rs).state.events = s.events
    ∧ (withdrawCells s d rs).state.pending = s.pending := by
  simp [withdrawCells]

@[simp] theorem castVotes_frame (s : State) (t : Ticket) (aw : Bool) (dl : BitVec 16) (cells : List (Nat × Setting)) (p : List Byte) (b : VoteWaiter) :
    (castVotes s t aw dl cells p b).run = s.run ∧ (castVotes s t aw dl cells p b).holds = s.holds
    ∧ (castVotes s t aw dl cells p b).domains = s.domains ∧ (castVotes s t aw dl cells p b).grants = s.grants
    ∧ (castVotes s t aw dl cells p b).fault = s.fault ∧ (castVotes s t aw dl cells p b).intake = s.intake
    ∧ (castVotes s t aw dl cells p b).events = s.events ∧ (castVotes s t aw dl cells p b).pending = s.pending := by
  simp only [castVotes]; (repeat' split) <;> simp

@[simp] theorem writePosture_frame (s : State) (d : Domain) (p : Posture) :
    (writePosture s d p).run = s.run ∧ (writePosture s d p).host = s.host ∧ (writePosture s d p).resources = s.resources
    ∧ (writePosture s d p).votes = s.votes ∧ (writePosture s d p).holds = s.holds ∧ (writePosture s d p).grants = s.grants
    ∧ (writePosture s d p).steps = s.steps ∧ (writePosture s d p).link = s.link ∧ (writePosture s d p).fault = s.fault
    ∧ (writePosture s d p).waiters = s.waiters ∧ (writePosture s d p).queues = s.queues ∧ (writePosture s d p).intake = s.intake
    ∧ (writePosture s d p).events = s.events ∧ (writePosture s d p).pending = s.pending := by
  simp [writePosture]

@[simp] theorem changePosture_frame (s : State) (d : Domain) (p : Posture) :
    (changePosture s d p).state.run = s.run ∧ (changePosture s d p).state.votes = s.votes
    ∧ (changePosture s d p).state.holds = s.holds ∧ (changePosture s d p).state.grants = s.grants
    ∧ (changePosture s d p).state.fault = s.fault ∧ (changePosture s d p).state.intake = s.intake
    ∧ (changePosture s d p).state.events = s.events ∧ (changePosture s d p).state.pending = s.pending := by
  simp only [changePosture]; split <;> simp

@[simp] theorem changeGrant_frame (s : State) (e : Nat) (c : Option Grant) :
    (changeGrant s e c).run = s.run ∧ (changeGrant s e c).holds = s.holds ∧ (changeGrant s e c).domains = s.domains
    ∧ (changeGrant s e c).fault = s.fault ∧ (changeGrant s e c).intake = s.intake ∧ (changeGrant s e c).events = s.events
    ∧ (changeGrant s e c).pending = s.pending := by
  simp only [changeGrant]; (repeat' split) <;> simp

@[simp] theorem disableDomain_frame (s : State) (d : Domain) :
    (disableDomain s d).run = s.run ∧ (disableDomain s d).holds = s.holds ∧ (disableDomain s d).grants = s.grants
    ∧ (disableDomain s d).fault = s.fault ∧ (disableDomain s d).events = s.events ∧ (disableDomain s d).pending = s.pending := by
  simp [disableDomain]

@[simp] theorem enableDomain_frame (s : State) (d : Domain) :
    (enableDomain s d).run = s.run ∧ (enableDomain s d).votes = s.votes ∧ (enableDomain s d).holds = s.holds
    ∧ (enableDomain s d).grants = s.grants ∧ (enableDomain s d).fault = s.fault ∧ (enableDomain s d).intake = s.intake
    ∧ (enableDomain s d).events = s.events ∧ (enableDomain s d).pending = s.pending := by
  simp [enableDomain]

@[simp] theorem voteCommand_frame (s : State) (t : Ticket) (aw : Bool) (dl : BitVec 16) (r l sp : Nat) :
    (voteCommand t aw dl r l sp s).run = s.run ∧ (voteCommand t aw dl r l sp s).holds = s.holds
    ∧ (voteCommand t aw dl r l sp s).domains = s.domains ∧ (voteCommand t aw dl r l sp s).grants = s.grants
    ∧ (voteCommand t aw dl r l sp s).fault = s.fault ∧ (voteCommand t aw dl r l sp s).intake = s.intake
    ∧ (voteCommand t aw dl r l sp s).events = s.events ∧ (voteCommand t aw dl r l sp s).pending = s.pending := by
  simp only [voteCommand]; (repeat' split) <;> simp

@[simp] theorem voteListCommand_frame (s : State) (t : Ticket) (aw : Bool) (dl : BitVec 16) (n : Nat) (e : BitVec 144) :
    (voteListCommand t aw dl n e s).run = s.run ∧ (voteListCommand t aw dl n e s).holds = s.holds
    ∧ (voteListCommand t aw dl n e s).domains = s.domains ∧ (voteListCommand t aw dl n e s).grants = s.grants
    ∧ (voteListCommand t aw dl n e s).fault = s.fault ∧ (voteListCommand t aw dl n e s).intake = s.intake
    ∧ (voteListCommand t aw dl n e s).events = s.events ∧ (voteListCommand t aw dl n e s).pending = s.pending := by
  simp only [voteListCommand]; (repeat' split) <;> simp

@[simp] theorem withdrawEffect_frame (s : State) (t : Ticket) (rs ks : List Nat) :
    (withdrawEffect s t rs ks).run = s.run ∧ (withdrawEffect s t rs ks).holds = s.holds
    ∧ (withdrawEffect s t rs ks).domains = s.domains ∧ (withdrawEffect s t rs ks).grants = s.grants
    ∧ (withdrawEffect s t rs ks).fault = s.fault ∧ (withdrawEffect s t rs ks).intake = s.intake
    ∧ (withdrawEffect s t rs ks).events = s.events ∧ (withdrawEffect s t rs ks).pending = s.pending := by
  simp [withdrawEffect]

@[simp] theorem withdrawCommand_frame (s : State) (t : Ticket) (r : Nat) :
    (withdrawCommand t r s).run = s.run ∧ (withdrawCommand t r s).holds = s.holds ∧ (withdrawCommand t r s).domains = s.domains
    ∧ (withdrawCommand t r s).grants = s.grants ∧ (withdrawCommand t r s).fault = s.fault
    ∧ (withdrawCommand t r s).intake = s.intake ∧ (withdrawCommand t r s).events = s.events
    ∧ (withdrawCommand t r s).pending = s.pending := by
  simp only [withdrawCommand]; (repeat' split) <;> simp

@[simp] theorem fenceCommand_frame (s : State) (t : Ticket) (dl : BitVec 16) :
    (fenceCommand t dl s).run = s.run ∧ (fenceCommand t dl s).resources = s.resources ∧ (fenceCommand t dl s).votes = s.votes
    ∧ (fenceCommand t dl s).holds = s.holds ∧ (fenceCommand t dl s).domains = s.domains ∧ (fenceCommand t dl s).grants = s.grants
    ∧ (fenceCommand t dl s).steps = s.steps ∧ (fenceCommand t dl s).fault = s.fault ∧ (fenceCommand t dl s).intake = s.intake
    ∧ (fenceCommand t dl s).events = s.events ∧ (fenceCommand t dl s).pending = s.pending := by
  simp only [fenceCommand]; (repeat' split) <;> simp

@[simp] theorem postureCommand_frame (s : State) (t : Ticket) (c : Nat) :
    (postureCommand t c s).run = s.run ∧ (postureCommand t c s).votes = s.votes ∧ (postureCommand t c s).holds = s.holds
    ∧ (postureCommand t c s).grants = s.grants ∧ (postureCommand t c s).fault = s.fault ∧ (postureCommand t c s).intake = s.intake
    ∧ (postureCommand t c s).events = s.events ∧ (postureCommand t c s).pending = s.pending := by
  simp only [postureCommand]; (repeat' split) <;> simp

@[simp] theorem renewCommand_frame (s : State) (t : Ticket) :
    (renewCommand t s).run = s.run ∧ (renewCommand t s).resources = s.resources ∧ (renewCommand t s).votes = s.votes
    ∧ (renewCommand t s).holds = s.holds ∧ (renewCommand t s).domains = s.domains ∧ (renewCommand t s).grants = s.grants
    ∧ (renewCommand t s).steps = s.steps ∧ (renewCommand t s).link = s.link ∧ (renewCommand t s).fault = s.fault
    ∧ (renewCommand t s).waiters = s.waiters ∧ (renewCommand t s).intake = s.intake ∧ (renewCommand t s).events = s.events
    ∧ (renewCommand t s).pending = s.pending := by
  simp [renewCommand]

@[simp] theorem queryCommand_frame (s : State) (t : Ticket) (fresh : Bool) (dl : BitVec 16) (r : Nat) :
    (queryCommand t fresh dl r s).run = s.run ∧ (queryCommand t fresh dl r s).resources = s.resources
    ∧ (queryCommand t fresh dl r s).votes = s.votes ∧ (queryCommand t fresh dl r s).holds = s.holds
    ∧ (queryCommand t fresh dl r s).domains = s.domains ∧ (queryCommand t fresh dl r s).grants = s.grants
    ∧ (queryCommand t fresh dl r s).steps = s.steps ∧ (queryCommand t fresh dl r s).fault = s.fault
    ∧ (queryCommand t fresh dl r s).intake = s.intake ∧ (queryCommand t fresh dl r s).events = s.events
    ∧ (queryCommand t fresh dl r s).pending = s.pending := by
  simp only [queryCommand]; (repeat' split) <;> simp

@[simp] theorem grantCommand_frame (s : State) (t : Ticket) (e : Nat) (rec : BitVec 64) :
    (grantCommand t e rec s).run = s.run ∧ (grantCommand t e rec s).holds = s.holds ∧ (grantCommand t e rec s).domains = s.domains
    ∧ (grantCommand t e rec s).fault = s.fault ∧ (grantCommand t e rec s).intake = s.intake
    ∧ (grantCommand t e rec s).events = s.events ∧ (grantCommand t e rec s).pending = s.pending := by
  simp only [grantCommand]; (repeat' split) <;> simp

@[simp] theorem revokeCommand_frame (s : State) (t : Ticket) (e : Nat) :
    (revokeCommand t e s).run = s.run ∧ (revokeCommand t e s).holds = s.holds ∧ (revokeCommand t e s).domains = s.domains
    ∧ (revokeCommand t e s).fault = s.fault ∧ (revokeCommand t e s).intake = s.intake ∧ (revokeCommand t e s).events = s.events
    ∧ (revokeCommand t e s).pending = s.pending := by
  simp only [revokeCommand]; (repeat' split) <;> simp

@[simp] theorem setDomainEffect_frame (s : State) (d : Domain) (w p : Nat) (en : Bool) :
    (setDomainEffect s d w p en).run = s.run ∧ (setDomainEffect s d w p en).holds = s.holds
    ∧ (setDomainEffect s d w p en).grants = s.grants ∧ (setDomainEffect s d w p en).fault = s.fault
    ∧ (setDomainEffect s d w p en).events = s.events ∧ (setDomainEffect s d w p en).pending = s.pending := by
  simp only [setDomainEffect]; (repeat' split) <;> simp

@[simp] theorem setDomainCommand_frame (s : State) (t : Ticket) (d w p e : Nat) :
    (setDomainCommand t d w p e s).run = s.run ∧ (setDomainCommand t d w p e s).holds = s.holds
    ∧ (setDomainCommand t d w p e s).grants = s.grants ∧ (setDomainCommand t d w p e s).fault = s.fault
    ∧ (setDomainCommand t d w p e s).events = s.events ∧ (setDomainCommand t d w p e s).pending = s.pending := by
  simp only [setDomainCommand]; (repeat' split) <;> simp

@[simp] theorem clearFaultCommand_frame (s : State) (t : Ticket) (dl : BitVec 16) (r : Nat) :
    (clearFaultCommand t dl r s).run = s.run ∧ (clearFaultCommand t dl r s).votes = s.votes
    ∧ (clearFaultCommand t dl r s).holds = s.holds ∧ (clearFaultCommand t dl r s).domains = s.domains
    ∧ (clearFaultCommand t dl r s).grants = s.grants ∧ (clearFaultCommand t dl r s).intake = s.intake
    ∧ (clearFaultCommand t dl r s).events = s.events ∧ (clearFaultCommand t dl r s).pending = s.pending := by
  simp only [clearFaultCommand]; (repeat' split) <;> simp

@[simp] theorem leaveSafe_frame (s : State) :
    (leaveSafe s).run = s.run ∧ (leaveSafe s).votes = s.votes ∧ (leaveSafe s).holds = s.holds ∧ (leaveSafe s).domains = s.domains
    ∧ (leaveSafe s).grants = s.grants ∧ (leaveSafe s).intake = s.intake ∧ (leaveSafe s).pending = s.pending := by
  simp [leaveSafe]

@[simp] theorem clearSafeCommand_frame (s : State) (t : Ticket) :
    (clearSafeCommand t s).run = s.run ∧ (clearSafeCommand t s).votes = s.votes ∧ (clearSafeCommand t s).holds = s.holds
    ∧ (clearSafeCommand t s).domains = s.domains ∧ (clearSafeCommand t s).grants = s.grants
    ∧ (clearSafeCommand t s).intake = s.intake ∧ (clearSafeCommand t s).pending = s.pending := by
  simp only [clearSafeCommand]; (repeat' split) <;> simp

@[simp] theorem releaseEffect_frame (s : State) (t : Ticket) (h : Table Level) :
    (releaseEffect s t h).run = s.run ∧ (releaseEffect s t h).votes = s.votes ∧ (releaseEffect s t h).domains = s.domains
    ∧ (releaseEffect s t h).grants = s.grants ∧ (releaseEffect s t h).fault = s.fault ∧ (releaseEffect s t h).intake = s.intake
    ∧ (releaseEffect s t h).events = s.events ∧ (releaseEffect s t h).pending = s.pending := by
  simp [releaseEffect]

@[simp] theorem releaseHoldCommand_frame (s : State) (t : Ticket) (r : Nat) :
    (releaseHoldCommand t r s).run = s.run ∧ (releaseHoldCommand t r s).votes = s.votes
    ∧ (releaseHoldCommand t r s).domains = s.domains ∧ (releaseHoldCommand t r s).grants = s.grants
    ∧ (releaseHoldCommand t r s).fault = s.fault ∧ (releaseHoldCommand t r s).intake = s.intake
    ∧ (releaseHoldCommand t r s).events = s.events ∧ (releaseHoldCommand t r s).pending = s.pending := by
  simp only [releaseHoldCommand]; (repeat' split) <;> simp

@[simp] theorem changeSlot_frame (s : State) (i : Nat) (cfg : Option ResourceConfig) :
    (changeSlot s i cfg).run = s.run ∧ (changeSlot s i cfg).host = s.host ∧ (changeSlot s i cfg).votes = s.votes
    ∧ (changeSlot s i cfg).holds = s.holds ∧ (changeSlot s i cfg).domains = s.domains ∧ (changeSlot s i cfg).grants = s.grants
    ∧ (changeSlot s i cfg).steps = s.steps ∧ (changeSlot s i cfg).link = s.link ∧ (changeSlot s i cfg).fault = s.fault
    ∧ (changeSlot s i cfg).waiters = s.waiters ∧ (changeSlot s i cfg).queues = s.queues ∧ (changeSlot s i cfg).intake = s.intake
    ∧ (changeSlot s i cfg).events = s.events ∧ (changeSlot s i cfg).pending = s.pending := by
  simp only [changeSlot]; (repeat' split) <;> simp

@[simp] theorem configEffect_frame (s : State) (t : Ticket) (i : Nat) (cfg : Option ResourceConfig) :
    (configEffect s t i cfg).run = s.run ∧ (configEffect s t i cfg).votes = s.votes ∧ (configEffect s t i cfg).holds = s.holds
    ∧ (configEffect s t i cfg).domains = s.domains ∧ (configEffect s t i cfg).grants = s.grants
    ∧ (configEffect s t i cfg).fault = s.fault ∧ (configEffect s t i cfg).intake = s.intake
    ∧ (configEffect s t i cfg).events = s.events ∧ (configEffect s t i cfg).pending = s.pending := by
  simp [configEffect]

@[simp] theorem configureSlot_frame (s : State) (t : Ticket) (i : Nat) (cfg : Option ResourceConfig) :
    (configureSlot s t i cfg).run = s.run ∧ (configureSlot s t i cfg).votes = s.votes ∧ (configureSlot s t i cfg).holds = s.holds
    ∧ (configureSlot s t i cfg).domains = s.domains ∧ (configureSlot s t i cfg).grants = s.grants
    ∧ (configureSlot s t i cfg).fault = s.fault ∧ (configureSlot s t i cfg).intake = s.intake
    ∧ (configureSlot s t i cfg).events = s.events ∧ (configureSlot s t i cfg).pending = s.pending := by
  simp only [configureSlot]; (repeat' split) <;> simp

@[simp] theorem configCommand_frame (s : State) (t : Ticket) (i : Nat) (c : Bool) (rec : BitVec 128) :
    (configCommand t i c rec s).run = s.run ∧ (configCommand t i c rec s).votes = s.votes
    ∧ (configCommand t i c rec s).holds = s.holds ∧ (configCommand t i c rec s).domains = s.domains
    ∧ (configCommand t i c rec s).grants = s.grants ∧ (configCommand t i c rec s).fault = s.fault
    ∧ (configCommand t i c rec s).intake = s.intake ∧ (configCommand t i c rec s).events = s.events
    ∧ (configCommand t i c rec s).pending = s.pending := by
  simp only [configCommand]; (repeat' split) <;> simp

end Sys2Proof.Machine
end

