-- ==== Sys2Proof/Laws/Table.lean ====
section
/-! SUPPORT. What a read of a table gives after each way of writing it, and that every way keeps the canonical form. -/

namespace Sys2Proof.Machine

variable {α : Type}

@[simp] theorem tget_nil (k : Nat) : tget ([] : Table α) k = none := rfl

theorem tget_cons (j k : Nat) (v : α) (t : Table α) : tget ((j, v) :: t) k = if j = k then some v else tget t k := rfl

/-- A read after a write of the same place gives the value written. -/
@[simp] theorem tget_tset_same (t : Table α) (k : Nat) (v : α) : tget (tset t k v) k = some v := by
  induction t with
  | nil => simp [tset, tget]
  | cons e t ih =>
    obtain ⟨j, w⟩ := e
    simp only [tset]
    split
    · simp [tget]
    · split
      · simp [tget]
      · have : j ≠ k := by omega
        simp [tget, this, ih]

/-- A write leaves every other place alone. -/
@[simp] theorem tget_tset_other (t : Table α) {k j : Nat} (v : α) (h : j ≠ k) : tget (tset t k v) j = tget t j := by
  induction t with
  | nil => simp [tset, tget, Ne.symm h]
  | cons e t ih =>
    obtain ⟨i, w⟩ := e
    simp only [tset]
    split
    · simp [tget, Ne.symm h]
    · split
      · rename_i h1; subst h1; simp [tget, Ne.symm h]
      · by_cases hi : i = j <;> simp [tget, hi, ih]

theorem tget_tset (t : Table α) (k j : Nat) (v : α) : tget (tset t k v) j = if j = k then some v else tget t j := by
  by_cases h : j = k
  · subst h; simp
  · simp [h]

/-- An emptied place is empty. -/
@[simp] theorem tget_tdel_same (t : Table α) (k : Nat) : tget (tdel t k) k = none := by
  induction t with
  | nil => rfl
  | cons e t ih =>
    obtain ⟨j, w⟩ := e
    by_cases h : j = k
    · subst h; simpa [tdel] using ih
    · have : tdel ((j, w) :: t) k = (j, w) :: tdel t k := by simp [tdel, h]
      simp [this, tget, h, ih]

/-- Emptying a place leaves every other place alone. -/
@[simp] theorem tget_tdel_other (t : Table α) {k j : Nat} (h : j ≠ k) : tget (tdel t k) j = tget t j := by
  induction t with
  | nil => rfl
  | cons e t ih =>
    obtain ⟨i, w⟩ := e
    by_cases hi : i = k
    · subst hi
      have : tdel ((i, w) :: t) i = tdel t i := by simp [tdel]
      simp [this, tget, Ne.symm h, ih]
    · have : tdel ((i, w) :: t) k = (i, w) :: tdel t k := by simp [tdel, hi]
      simp [this, tget, ih]

theorem tget_tdel (t : Table α) (k j : Nat) : tget (tdel t k) j = if j = k then none else tget t j := by
  by_cases h : j = k
  · subst h; simp
  · simp [h]

/-- A change of every filled place changes what each holds and fills none. -/
@[simp] theorem tget_tmap (f : Nat → α → α) (t : Table α) (k : Nat) : tget (tmap f t) k = (tget t k).map (f k) := by
  induction t with
  | nil => rfl
  | cons e t ih =>
    obtain ⟨j, w⟩ := e
    by_cases h : j = k
    · subst h; simp [tmap, tget]
    · have : tmap f ((j, w) :: t) = (j, f j w) :: tmap f t := rfl
      simp [this, tget, h, ih]

/-- Whatever `tget` reads is listed. -/
theorem mem_of_tget {t : Table α} {k : Nat} {v : α} (h : tget t k = some v) : (k, v) ∈ t := by
  induction t with
  | nil => simp at h
  | cons e t ih =>
    obtain ⟨j, w⟩ := e
    by_cases hj : j = k
    · subst hj; simp [tget] at h; simp [h]
    · simp [tget, hj] at h; exact List.mem_cons_of_mem _ (ih h)

/-! ## The canonical form -/

theorem tsorted_iff (t : Table α) : tsorted t = true ↔ t.Pairwise fun a b => a.1 < b.1 := by
  induction t with
  | nil => simp [tsorted]
  | cons e t ih =>
    obtain ⟨j, w⟩ := e
    cases t with
    | nil => simp [tsorted]
    | cons e' t =>
      obtain ⟨k, v⟩ := e'
      simp only [tsorted, Bool.and_eq_true, decide_eq_true_eq, ih, List.pairwise_cons]
      constructor
      · rintro ⟨h, h1, h2⟩
        refine ⟨?_, h1, h2⟩
        rintro b (hb | ⟨_, hb⟩)
        · exact h
        · exact h.trans (h1 _ hb)
      · rintro ⟨h, h1, h2⟩
        exact ⟨h (k, v) (by simp), h1, h2⟩

/-- Whatever is listed in canonical form is what `tget` reads. -/
theorem tget_of_mem {t : Table α} (ht : tsorted t = true) {k : Nat} {v : α} (h : (k, v) ∈ t) : tget t k = some v := by
  rw [tsorted_iff] at ht
  induction t with
  | nil => simp at h
  | cons e t ih =>
    obtain ⟨j, w⟩ := e
    rw [List.pairwise_cons] at ht
    rcases List.mem_cons.1 h with h | h
    · cases h; simp [tget]
    · have := ht.1 _ h
      have hj : j ≠ k := by simp at this; omega
      simp [tget, hj, ih ht.2 h]

theorem mem_tset_key {t : Table α} {k : Nat} {v : α} {e : Nat × α} (h : e ∈ tset t k v) : e.1 = k ∨ e ∈ t := by
  induction t with
  | nil => simp [tset] at h; simp [h]
  | cons a t ih =>
    obtain ⟨j, w⟩ := a
    simp only [tset] at h
    split at h
    · rcases List.mem_cons.1 h with h | h <;> simp_all
    · split at h
      · rcases List.mem_cons.1 h with h | h <;> simp_all
      · rcases List.mem_cons.1 h with h | h
        · simp [h]
        · rcases ih h with h | h <;> simp_all

/-- Writing a place keeps the canonical form. -/
theorem tsorted_tset {t : Table α} (h : tsorted t = true) (k : Nat) (v : α) : tsorted (tset t k v) = true := by
  rw [tsorted_iff] at *
  induction t with
  | nil => simp [tset]
  | cons e t ih =>
    obtain ⟨j, w⟩ := e
    rw [List.pairwise_cons] at h
    simp only [tset]
    split
    · rename_i hk
      refine List.pairwise_cons.2 ⟨?_, List.pairwise_cons.2 h⟩
      rintro b hb
      rcases List.mem_cons.1 hb with rfl | hb
      · exact hk
      · exact Nat.lt_trans hk (h.1 _ hb)
    · split
      · rename_i hk; subst hk; exact List.pairwise_cons.2 ⟨h.1, h.2⟩
      · refine List.pairwise_cons.2 ⟨?_, ih h.2⟩
        intro b hb
        rcases mem_tset_key hb with hb | hb
        · simp only [hb]; omega
        · exact h.1 _ hb

/-- Leaving some places out keeps the canonical form. -/
theorem tsorted_filter {t : Table α} (h : tsorted t = true) (p : Nat × α → Bool) : tsorted (t.filter p) = true := by
  rw [tsorted_iff] at *
  exact h.sublist List.filter_sublist

/-- Emptying a place keeps the canonical form. -/
theorem tsorted_tdel {t : Table α} (h : tsorted t = true) (k : Nat) : tsorted (tdel t k) = true := tsorted_filter h _

/-- Changing what filled places hold keeps the canonical form. -/
theorem tsorted_tmap {t : Table α} (h : tsorted t = true) (f : Nat → α → α) : tsorted (tmap f t) = true := by
  rw [tsorted_iff] at *
  simpa [tmap, List.pairwise_map] using h

@[simp] theorem tkeys_tmap (f : Nat → α → α) (t : Table α) : tkeys (tmap f t) = tkeys t := by
  simp [tkeys, tmap, Function.comp_def]

end Sys2Proof.Machine
end

