-- ==== Sys2Proof/Laws/Reads.lean ====
section
/-! SUPPORT. What a read of one place gives after each update of one place, and what judging and withdrawing leave of a resource. -/

namespace Sys2Proof.Machine

/-! ## Read after write -/

theorem resourceAt_setResource (s : State) (r k : Nat) (x : Resource) :
    resourceAt (setResource s r x) k = if k = r then some x else resourceAt s k := by
  simp [resourceAt, setResource, tget_tset]

theorem resourceAt_modifyResource (s : State) (r k : Nat) (f : Resource → Resource) :
    resourceAt (modifyResource s r f) k = if k = r then (resourceAt s r).map f else resourceAt s k := by
  simp only [modifyResource]
  split
  · rename_i h; split
    · rename_i hk; subst hk; simp [h]
    · rfl
  · rename_i x h; simp [resourceAt_setResource, h]

theorem resourceAt_setCond (s : State) (r k : Nat) (c : Condition) :
    resourceAt (setCond s r c) k = if k = r then (resourceAt s r).map (fun x => { x with cond := c }) else resourceAt s k :=
  resourceAt_modifyResource s r k _

theorem domainAt_setDomainRec (s : State) (d e : Domain) (x : DomainRec) :
    domainAt (setDomainRec s d x) e = if e = d then x else domainAt s e := by
  simp only [domainAt, setDomainRec, setDomains_domains, Vector.getElem_set]
  by_cases h : d.val = e.val
  · simp [h, Fin.ext h.symm]
  · have h' : ¬ e = d := fun hh => h (by rw [hh])
    simp [h, h']

theorem queueAt_setQueue (s : State) (d e : Domain) (x : Queue) :
    queueAt (setQueue s d x) e = if e = d then x else queueAt s e := by
  simp only [queueAt, setQueue, setQueues_queues, Vector.getElem_set]
  by_cases h : d.val = e.val
  · simp [h, Fin.ext h.symm]
  · have h' : ¬ e = d := fun hh => h (by rw [hh])
    simp [h, h']

theorem cellsOf_setCells (s : State) (d e : Domain) (x : Table Setting) :
    cellsOf (setCells s d x) e = if e = d then x else cellsOf s e := by
  simp only [cellsOf, setCells, setVotes_votes, Vector.getElem_set]
  by_cases h : d.val = e.val
  · simp [h, Fin.ext h.symm]
  · have h' : ¬ e = d := fun hh => h (by rw [hh])
    simp [h, h']

theorem cellAt_writeCell (s : State) (d e : Domain) (r k : Nat) (c : Setting) :
    cellAt (writeCell s d r c) e k = if e = d ∧ k = r then some c else cellAt s e k := by
  simp only [cellAt, writeCell, cellsOf_setCells]
  by_cases h : e = d
  · subst h; simp [tget_tset]
  · simp [h]

theorem cellAt_dropCell (s : State) (d e : Domain) (r k : Nat) :
    cellAt (dropCell s d r) e k = if e = d ∧ k = r then none else cellAt s e k := by
  simp only [cellAt, dropCell, cellsOf_setCells]
  by_cases h : e = d
  · subst h; simp [tget_tdel]
  · simp [h]

theorem stepAt_setStep (s : State) (k j : Nat) (x : Step) :
    stepAt (setStep s k x) j = if j = k then some x else stepAt s j := by
  simp [stepAt, setStep, tget_tset]

theorem stepAt_freeStep (s : State) (k j : Nat) : stepAt (freeStep s k) j = if j = k then none else stepAt s j := by
  simp [stepAt, freeStep, tget_tdel]

/-- Freeing a slot leaves no step of a resource but those that stood in other slots. -/
theorem steps_freeStep (s : State) (k : Nat) : (freeStep s k).steps = tdel s.steps k := by simp [freeStep]

theorem waiters_dropWaiter (s : State) (k : Nat) : (dropWaiter s k).waiters = tdel s.waiters k := by simp [dropWaiter]

/-! ## Reads that an update does not reach -/

theorem resourceAt_congr {s t : State} (h : t.resources = s.resources) (r : Nat) : resourceAt t r = resourceAt s r := by
  simp [resourceAt, h]
theorem domainAt_congr {s t : State} (h : t.domains = s.domains) (d : Domain) : domainAt t d = domainAt s d := by
  simp [domainAt, h]
theorem queueAt_congr {s t : State} (h : t.queues = s.queues) (d : Domain) : queueAt t d = queueAt s d := by
  simp [queueAt, h]
theorem cellsOf_congr {s t : State} (h : t.votes = s.votes) (d : Domain) : cellsOf t d = cellsOf s d := by
  simp [cellsOf, h]
theorem cellAt_congr {s t : State} (h : t.votes = s.votes) (d : Domain) (r : Nat) : cellAt t d r = cellAt s d r := by
  simp [cellAt, cellsOf_congr h]
theorem stepAt_congr {s t : State} (h : t.steps = s.steps) (k : Nat) : stepAt t k = stepAt s k := by
  simp [stepAt, h]
theorem hasStep_congr {s t : State} (h : t.steps = s.steps) (r : Nat) : hasStep t r = hasStep s r := by
  simp [hasStep, h]
theorem onCutList_congr {s t : State} (h : t.fault = s.fault) (r : Nat) : onCutList t r = onCutList s r := by
  simp [onCutList, h]

/-! ## Targets do not look at what a judgement changes -/

theorem childrenOf_congr {s t : State} (hr : t.resources = s.resources) (r : Nat) : childrenOf t r = childrenOf s r := by
  simp [childrenOf, hr]

theorem effectiveVotes_congr {s t : State} (hv : t.votes = s.votes) (hd : t.domains = s.domains) (r : Nat) (cfg : ResourceConfig) :
    effectiveVotes t r cfg = effectiveVotes s r cfg := by
  simp [effectiveVotes, domainAt_congr hd, cellAt_congr hv]

/-- The target level is read from Run Control's state, the SAFE flag, the resources, the cells and the postures alone (R36 to R38). -/
theorem targetLevelWithin_congr {s t : State} (hs : t.run.state = s.run.state) (hf : t.fault.safe = s.fault.safe)
    (hr : t.resources = s.resources) (hv : t.votes = s.votes) (hd : t.domains = s.domains) (hh : t.holds = s.holds) (n r : Nat) :
    targetLevelWithin n t r = targetLevelWithin n s r := by
  induction n generalizing r with
  | zero => rfl
  | succ n ih =>
    have ih' : targetLevelWithin n t = targetLevelWithin n s := funext ih
    simp only [targetLevelWithin, resourceAt_congr hr, forcedOff, hs, hf, ownLevels, effectiveVotes_congr hv hd, hh,
      childrenOf_congr hr, ih']
    rfl

theorem targetOf_congr {s t : State} (hs : t.run.state = s.run.state) (hf : t.fault.safe = s.fault.safe)
    (hr : t.resources = s.resources) (hv : t.votes = s.votes) (hd : t.domains = s.domains) (hh : t.holds = s.holds) (r : Nat) :
    targetOf t r = targetOf s r := by
  simp [targetOf, targetLevel, targetLevelWithin_congr hs hf hr hv hd hh, resourceAt_congr hr, targetSetpoint,
    effectiveVotes_congr hv hd]
  rfl

/-! ## What judging and withdrawing do to a resource -/

theorem resourceAt_judgeConditions (s : State) (rs : List Nat) (r : Nat) :
    resourceAt (judgeConditions s rs) r = (resourceAt s r).map fun x => if rs.contains r then judged s r x else x := by
  simp [resourceAt, judgeConditions]

/-- Judging writes a condition and nothing else of the record. -/
theorem judged_eq (s : State) (r : Nat) (x : Resource) : ∃ c, judged s r x = { x with cond := c } := by
  unfold judged
  split
  · exact ⟨_, rfl⟩
  · exact ⟨x.cond, rfl⟩

/-- Withdrawing a step sets one condition, frees its slot, and keeps every other record. -/
theorem resourceAt_withdrawStep (s : State) (k : Nat) (st : Step) (r : Nat) :
    resourceAt (withdrawStep s k st) r
      = if r = st.resource then (resourceAt s r).map (fun x => { x with cond := .waiting }) else resourceAt s r := by
  have h : ∀ r, resourceAt (freeStep s k) r = resourceAt s r := resourceAt_congr (by simp)
  simp only [withdrawStep, resourceAt_setCond, h]
  split
  · rename_i hr; subst hr; rfl
  · rfl

theorem stepAt_withdrawStep (s : State) (k j : Nat) (st : Step) :
    stepAt (withdrawStep s k st) j = if j = k then none else stepAt s j := by
  have h : stepAt (withdrawStep s k st) j = stepAt (freeStep s k) j := stepAt_congr (by simp [withdrawStep]) j
  rw [h, stepAt_freeStep]

/-! ## Waiters that a cause ends -/

theorem waiters_completeWaiter (s : State) (k : Nat) (st : Status) : (completeWaiter s k st).waiters = tdel s.waiters k := by
  simp only [completeWaiter, completeWith]
  split
  · rename_i h
    have key : ∀ (t : Table Waiter), tget t k = none → tdel t k = t := by
      intro t
      induction t with
      | nil => intro _; rfl
      | cons e t ih =>
        obtain ⟨j, w⟩ := e
        intro ht
        by_cases hj : j = k
        · subst hj; simp [tget] at ht
        · simp only [tget, hj, if_false] at ht
          have := ih ht
          simp only [tdel] at this ⊢
          simp [hj, this]
    exact (key _ h).symm
  · simp [waiters_dropWaiter]

/-- `sameTarget` is equality (R41). -/
theorem sameTarget_iff (a b : Option Setting) : sameTarget a b = true ↔ a = b := by
  rcases a with _ | ⟨la, sa⟩ <;> rcases b with _ | ⟨lb, sb⟩ <;> simp [sameTarget]

/-- After some entries have been completed, none of them is filled and every other entry is as it was (8.4). -/
theorem tget_completeEntries (s : State) (ks : List Nat) (st : Status) (j : Nat) :
    tget (completeEntries s ks st).waiters j = if j ∈ ks then none else tget s.waiters j := by
  induction ks generalizing s with
  | nil => simp [completeEntries]
  | cons k ks ih =>
    have h : completeEntries s (k :: ks) st = completeEntries (completeWaiter s k st) ks st := rfl
    rw [h, ih, waiters_completeWaiter, tget_tdel]
    by_cases h1 : j ∈ ks
    · simp [h1]
    · by_cases h2 : j = k <;> simp [h1, h2]

/-- A cause leaves no waiter that it reaches (R163). -/
theorem completeWhere_leaves_none (s : State) (p : Waiter → Bool) (st : Status) (j : Nat) (w : Waiter)
    (h : tget (completeWhere s p st).waiters j = some w) : p w = false ∧ tget s.waiters j = some w := by
  rw [completeWhere, tget_completeEntries] at h
  split at h
  · simp at h
  · rename_i hn
    refine ⟨?_, h⟩
    by_contra hp
    apply hn
    simp only [entriesWhere, List.mem_map, List.mem_filter]
    exact ⟨(j, w), ⟨mem_of_tget h, by simpa using hp⟩, rfl⟩

end Sys2Proof.Machine
end

