-- ==== Sys2Proof/Laws/Effects.lean ====
section
/-! SUPPORT. What posting asks of the Host Port, when a lease is due, when a command is taken, and what following targets changes. -/

namespace Sys2Proof.Machine

/-! ## Records asked of the Host Port -/

/-- A write asked for an owner is one more record of that owner when it has 16 bytes. -/
theorem recordsOf_askWrite (s : State) (o o' : WriteOwner) (a : BitVec 64) (data : List Byte) :
    recordsOf (askWrite s o a data) o' = recordsOf s o' ++ if o = o' ∧ data.length = 16 then [data] else [] := by
  by_cases h : o = o' <;> by_cases h' : data.length = 16 <;> simp [recordsOf, askWrite, List.filter_append, h, h']

theorem recordsOf_congr {s t : State} (h : t.host.writes = s.host.writes) (o : WriteOwner) : recordsOf t o = recordsOf s o := by
  simp [recordsOf, h]

/-- A completion entry has 16 bytes (R167). -/
theorem completionRecord_length (c : Completion) (phase : Bool) (h : c.payload.length = 12) :
    (completionRecord c phase).length = 16 := by
  simp [completionRecord, bytesLE, h]

/-- The fetch that a grant begins: the record at the domain's SQ head, read at its address in the submission ring (R165, R173). -/
theorem beginFetch_eq_some (s : State) (d : Domain) (f : Fetch) : beginFetch s d = some f ↔ ∃ desc, (queueAt s d).desc = some desc
    ∧ f = { domain := d, index := (queueAt s d).sqHead, addr := desc.sqBase + BitVec.ofNat 64 (32 * (queueAt s d).sqHead), void := false } := by
  simp [beginFetch, submissionAddress, eq_comm]

/-- An event record has 16 bytes (R177). -/
theorem eventRecord_length (e : Event) (phase : Bool) (dropped : Nat) (now : BitVec 32) :
    (eventRecord e phase dropped now).length = 16 := by
  simp [eventRecord, bytesLE]

@[simp] theorem indexPayload_length (index : Option Nat) : (indexPayload index).length = 12 := by simp [indexPayload]

/-- A completion posted to an ENABLED queue is one more record of its domain (R174). -/
theorem recordsOf_postCompletion (s : State) (held : Bool) (c : Completion) (hq : (queueAt s c.domain).state = .enabled)
    (hd : (queueAt s c.domain).desc.isSome = true) (hp : c.payload.length = 12) :
    recordsOf (postCompletion s held c) (.queue c.domain)
      = recordsOf s (.queue c.domain) ++ [completionRecord c (queueAt s c.domain).cqPhase] := by
  obtain ⟨desc, hdesc⟩ := Option.isSome_iff_exists.mp hd
  have hl := completionRecord_length c (queueAt s c.domain).cqPhase hp
  have hb : (bytesLE 4 desc.msgData.toNat).length ≠ 16 := by simp [bytesLE]
  have hs : ∀ (u : State) x, recordsOf (setQueue u c.domain x) (.queue c.domain) = recordsOf u (.queue c.domain) :=
    fun _ _ => recordsOf_congr (by simp) _
  simp only [postCompletion, hq, hdesc, hs]
  split <;> simp [recordsOf_askWrite, hl, hb]

/-- A completion posted to an ENABLED queue is the youngest record of its domain, with the phase as it stood (R174). -/
theorem lastRecord_postCompletion (s : State) (held : Bool) (c : Completion) (hq : (queueAt s c.domain).state = .enabled)
    (hd : (queueAt s c.domain).desc.isSome = true) (hp : c.payload.length = 12) :
    lastRecord (postCompletion s held c) (.queue c.domain) = some (completionRecord c (queueAt s c.domain).cqPhase) := by
  simp [lastRecord, recordsOf_postCompletion s held c hq hd hp]

/-- Handing an event asks no record of a domain's queue (R178). -/
theorem recordsOf_handEvent (s : State) (e : Event) (d : Domain) : recordsOf (handEvent s e) (.queue d) = recordsOf s (.queue d) := by
  have h : ∀ (t : State) x, recordsOf (setEvents t x) (.queue d) = recordsOf t (.queue d) := fun _ _ => recordsOf_congr (by simp) _
  simp only [handEvent]
  (repeat' split) <;> simp [h, recordsOf_askWrite]

/-- What was posted in the first part of a happening, or in the second, was posted in it. -/
theorem Posted.trans_left {s t u : State} {c : Completion} (h : Posted s t c)
    (hu : ∃ new, recordsOf u (.queue c.domain) = recordsOf t (.queue c.domain) ++ new) : Posted s u c := by
  obtain ⟨a, phase, ha, hm⟩ := h
  obtain ⟨b, hb⟩ := hu
  exact ⟨a ++ b, phase, by rw [hb, ha, List.append_assoc], List.mem_append_left _ hm⟩

theorem Posted.trans_right {s t u : State} {c : Completion}
    (ht : ∃ new, recordsOf t (.queue c.domain) = recordsOf s (.queue c.domain) ++ new) (h : Posted t u c) : Posted s u c := by
  obtain ⟨a, ha⟩ := ht
  obtain ⟨b, phase, hb, hm⟩ := h
  exact ⟨a ++ b, phase, by rw [hb, ha, List.append_assoc], List.mem_append_right _ hm⟩

/-! ## Leases -/

/-- A lease that expires runs and has reached 0 (R120, R122). -/
theorem leaseDue_iff (s : State) (x : DomainRec) : leaseDue s x = true ↔ s.run.state = .running ∧ x.enabled = true
    ∧ (x.posture = some .active ∨ x.posture = some .drowsy) ∧ x.leasePeriod ≠ 0 ∧ x.lease = some 0 := by
  simp only [leaseDue, leaseRuns, Bool.and_eq_true, Bool.or_eq_true, beq_iff_eq, bne_iff_ne]
  constructor
  · rintro ⟨⟨⟨⟨⟨he, hp⟩, hn⟩, -⟩, hr⟩, hl⟩
    exact ⟨hr, he, hp, hn, hl⟩
  · rintro ⟨hr, he, hp, hn, hl⟩
    exact ⟨⟨⟨⟨⟨he, hp⟩, hn⟩, by simp [hl]⟩, hr⟩, hl⟩

/-- A lease that has just restarted at the full period has time left, so it is not due (R121, R122). -/
theorem fullLease_ne_zero (period : Nat) : fullLease period ≠ some 0 := by
  simp only [fullLease, Config.leaseUnits]
  split
  · simp
  · simp; omega

/-! ## Taking a command -/

/-- The Queue Engine can hand over a command only on an ENABLED queue with a ring descriptor. -/
theorem canHandOver_enabled {s : State} {d : Domain} (h : canHandOver s d = true) :
    (queueAt s d).state = .enabled ∧ (queueAt s d).desc.isSome = true := by
  simp only [canHandOver, Bool.and_eq_true, beq_iff_eq] at h
  refine ⟨h.1.1.1, ?_⟩
  have hr := h.1.1.2
  cases hd : (queueAt s d).desc with
  | none => simp [hasRoom, hd] at hr
  | some desc => rfl

/-- A command that is taken in RUNNING, and that its domain may send, has its own effect after the lease restart (R132). -/
theorem handOver_own {s : State} {t : Ticket} (own : State → State) (h : Taking s t.domain)
    (ha : isAdministrative t.code = false ∨ t.domain = 0) : handOver s t own = own (restartLease s t.domain) := by
  have hp : (isAdministrative t.code && t.domain != 0) = false := by
    rcases ha with ha | ha <;> simp [ha]
  simp [handOver, takeCommand, h.1, h.2, hp]

/-- A command that cannot be handed over is not taken (entry 4). -/
theorem handOver_none {s : State} {t : Ticket} (own : State → State) (h : canHandOver s t.domain = false) : handOver s t own = s := by
  simp [handOver, h]

/-- The lease restart changes one lease and nothing else (R121). -/
theorem restartLease_queueAt (s : State) (d e : Domain) : queueAt (restartLease s d) e = queueAt s e := queueAt_congr (by simp) e

theorem domainAt_restartLease (s : State) (d e : Domain) :
    domainAt (restartLease s d) e = if e = d then
      { domainAt s d with lease := (domainAt s d).lease.bind fun _ => fullLease (domainAt s d).leasePeriod } else domainAt s e := by
  simp only [restartLease]
  split
  · rename_i h
    split
    · rename_i he; subst he; cases hx : domainAt s e; simp_all
    · rfl
  · rename_i h
    simp [domainAt_setDomainRec, h]

/-- A completed command on an ENABLED queue posts its completion last (R133). -/
theorem postedLast_finish (s : State) (t : Ticket) (status : Status) (hq : (queueAt s t.domain).state = .enabled)
    (hd : (queueAt s t.domain).desc.isSome = true) :
    PostedLast (finish s t status) (plainCompletion t.domain t.code t.tag status) :=
  ⟨(queueAt s t.domain).cqPhase, lastRecord_postCompletion s false _ hq hd (by simp)⟩

/-! ## Following targets changes conditions alone -/

theorem onlyConditions_refl (s : State) : OnlyConditionsChange s s := fun _ => rfl

theorem onlyConditions_trans {s t u : State} (h : OnlyConditionsChange s t) (h' : OnlyConditionsChange t u) : OnlyConditionsChange s u :=
  fun r => (h' r).trans (h r)

theorem onlyConditions_of_eq {s t : State} (h : t.resources = s.resources) : OnlyConditionsChange s t :=
  fun r => by rw [resourceAt_congr h]

theorem onlyConditions_judge (s : State) (rs : List Nat) : OnlyConditionsChange s (judgeConditions s rs) := by
  intro r
  rw [resourceAt_judgeConditions]
  cases h : resourceAt s r with
  | none => rfl
  | some x =>
    simp only [Option.map_some]
    split
    · obtain ⟨c, hc⟩ := judged_eq s r x; simp [hc, withoutCond]
    · rfl

theorem onlyConditions_withdrawStep (s : State) (k : Nat) (st : Step) : OnlyConditionsChange s (withdrawStep s k st) := by
  intro r
  rw [resourceAt_withdrawStep]
  split
  · cases resourceAt s r <;> rfl
  · rfl

theorem onlyConditions_withdrawChanged (s : State) (rs : List Nat) : OnlyConditionsChange s (withdrawChanged s rs) := by
  unfold withdrawChanged
  generalize List.filter _ s.steps = l
  induction l generalizing s with
  | nil => exact onlyConditions_refl s
  | cons e l ih => exact onlyConditions_trans (onlyConditions_withdrawStep s e.1 e.2) (ih _)

/-- Following the targets of a happening changes no record but for its condition (R41). -/
theorem onlyConditions_followTargets (s t : State) (touched : List Nat) : OnlyConditionsChange t (followTargets s t touched).state :=
  onlyConditions_trans (onlyConditions_withdrawChanged t _) (onlyConditions_judge _ _)

end Sys2Proof.Machine
end

