-- ==== Sys2Proof/Tests/Slice0.lean ====
section
/-! SUPPORT. Tests of single happenings on a small part, with expected values worked out by hand from the rules, and a witness for the
hypotheses of each obligation. -/

namespace Sys2Proof.Tests

open Sys2Proof.Machine

set_option Elab.async false

/-! ## A small part in RUNNING -/

/-- The ring descriptor of every domain of the rig. -/
def ring : RingDescriptor := { sqBase := 0x100, sqSize := 4, cqBase := 0x1000, cqSize := 8, msgAddr := 0x2000, msgData := 0x55 }

/-- A RAIL with settle limit 150 µs, hold 20 µs and one retry. -/
def railCfg (endpoint : Nat) (parents : List Nat) (nominal : Nat) (policy : Policy) : ResourceConfig :=
  { kind := .rail, mask := { retain := true, on := true }, endpoint := endpoint, channel := 0, parents := parents, nominal := some nominal
    slew := some 4, settleLimit := 3, hold := 2, retryLimit := 1, sleepMap := .retain, detachMap := .off, policy := policy
    initial := .off }

/-- A resource at a level and setpoint in a condition, with nothing else to tell. -/
def resourceOf (cfg : ResourceConfig) (level : Level) (setpoint : Option Nat) (cond : Condition) : Resource :=
  { cfg := cfg, level := level, setpoint := setpoint, cond := cond, alignOwed := false, lastFault := none, faultCount := 0
    lastSample := none }

/-- A root rail at ON 12, its child rail at ON 10 by the vote of D1, a gate below that at OFF, and a locked clock. -/
def rigResources : Table Resource :=
  [(0, resourceOf (railCfg 1 [] 12 .trip) .on (some 12) .steady),
   (1, resourceOf (railCfg 2 [0] 10 .cut) .on (some 10) .steady),
   (2, resourceOf { railCfg 2 [1] 0 .report with kind := .gate, channel := 1, nominal := none, slew := none } .off none .steady),
   (5, resourceOf { railCfg 3 [] 3 .cut with kind := .clock } .off none .locked)]

/-- D0 and D1 are enabled, D1 has a lease of 100 ms, D2 to D7 are disabled. -/
def rig : State :=
  { State.reset with
    run := { resetRun with state := .running, runTime := 9 }
    resources := rigResources
    votes := perDomain fun d => if d = 1 then [(1, { level := .on, setpoint := some 10 })] else []
    domains := perDomain fun d => if d ≤ 1 then
      { enabled := true, posture := some .active, weight := 1, leasePeriod := d.val, lease := if d = 1 then some 7 else none }
      else resetDomain
    grants := [(0, { domain := 1, idBase := 0, idMask := 0, maxLevel := .on, cap := 20 })]
    queues := perDomain fun d => { resetQueue with desc := some ring, armed := decide (d ≤ 1), state := if d ≤ 1 then .enabled else .disabled }
    events := { resetEvents with desc := some { base := 0x3000, size := 8, msgAddr := 0x2004, msgData := 0x66 }, armed := true
                                 enabled := true } }

/-- The state after a happening. -/
def after (c : Instr) (s : State) : State :=
  match exec c s with
  | .next t => t
  | .fault _ => s
  | .refused _ => s

/-- A record from its bytes, the first at offset 0. -/
def ofBytes (l : List Nat) : Nat := l.foldr (fun b n => b + 256 * n) 0
/-- Code, status and tag of the youngest completion of a domain, and the byte after them. -/
def lastHead (s : State) (d : Domain) : Option (List Byte) := (lastRecord s (.queue d)).map (·.take 5)
/-- Kind, and subject to flags, of the youngest event record. -/
def lastEvent (s : State) : Option (List Byte) := (lastRecord s .events).map fun r => r.take 1 ++ (r.drop 8).take 4
/-- The conditions of the present resources. -/
def conds (s : State) : List Condition := s.resources.map fun e => e.2.cond

/-- The same part in another run state. -/
def inRun (st : RunState) (s : State) : State := setRun s { s.run with state := st }
/-- The same part with the SAFE flag set. -/
def inSafe (s : State) : State := setFault s { s.fault with safe := true, tripCause := some { resource := 0, kind := .noSettle } }

/-- D1's lease has run down to 0. -/
def expired : State := setDomainRec rig 1 { domainAt rig 1 with lease := some 0 }

/-! ## Moments in the life of the rig -/

/-- The gate is voted ON and waits for its step. -/
def wanting : State := after (.vote 1 7 false 0 2 3 0xFF) rig
/-- Its step is placed. -/
def placed : State := after .allocation wanting
/-- Its SET is on the link. -/
def issued : State := after .linkGrant placed
/-- The ACK of the gate's endpoint channel, endpoint 2 channel 1. -/
def gateAck : List Byte := [0x02, 0x81, 0x83]
/-- Its SET is acknowledged. -/
def settling : State := after (.answer gateAck) issued
/-- Its step holds. -/
def holding : State := setStep settling 0 { resource := 2, direction := .raise, purpose := .normal, origin := { level := .off, setpoint := none }
                                            goal := { level := .on, setpoint := none }, retries := 0, early := false, state := .holding 2 }
/-- A vote with await and a deadline of 5 ms left a waiter. -/
def waiting : State := after (.vote 1 7 true 5 2 3 0xFF) rig
/-- The clock's lock is being cleared by D0. -/
def clearing : State := after (.clearFault 0 9 0 5) rig
/-- D1 is DETACHED. -/
def detached : State := after (.posture 1 7 3) rig
/-- D1 has moved its tail: three commands are pending. -/
def pendingThree : State := after (.sqTail 1 3) rig
/-- The first of them is being fetched. -/
def fetching : State := after .intakeGrant pendingThree
/-- One completion of D1 and its message are outstanding. -/
def renewed : State := after (.renew 1 3) rig
/-- Every resource is at OFF and none is locked. -/
def dark : State := setVotes (setResources rig (tmap (fun _ x => { x with level := .off, setpoint := none, cond := .steady }) rig.resources))
  (Vector.replicate 8 [])
/-- A load waits for its header. -/
def loading : State := after .runSet State.reset
/-- A header of version 1 with poll period 10 ms and an event ring of 8 entries. -/
def header : BitVec 256 := 0x20040000000000003000000000660003000a0624000142435a44
/-- A load waits for the rest of the block. -/
def loadingBody : State := after (.loadHeaderData 0 header) loading
/-- The rest of a block with one rail, initially ON, and D0 enabled; rings of 4 entries; the checksum is worked out by hand. -/
def block : BitVec 12320 :=
  BitVec.ofNat 12320 (0x320000010203040c0000000001030101
    + 2 ^ (8 * 0x500) * 0x2000000000000000100000000000000020000000005522000101
    + (List.range 7).foldl (fun n i => n + 2 ^ (8 * (0x520 + 0x20 * i)) * 0x2000000000000000100000000000000020000000005522000100) 0
    + 2 ^ (8 * 0x600) * 0x728cc590)

/-! ## Well-formedness: an ill-formed term for each check -/

theorem test_wf_ignored_offset : wellFormed (.registerWriteIgnored 0x08 0) = false := by decide
theorem test_wf_ignored_kind : wellFormed (.registerWriteIgnored 0x10 0x1000) = false := by decide
theorem test_wf_settle_slot : wellFormed (.settleTimeout 4) = false := by decide
theorem test_wf_hold_slot : wellFormed (.holdExpiry 4) = false := by decide
theorem test_wf_deadline_entry : wellFormed (.deadlineExpiry 32) = false := by decide

/-! ## Register writes as rows (11.5) -/

/-- CONTROL bits 0 and 1. -/
theorem test_decode_control : decodeRegisterWrite 0 0b01 = some .runSet ∧ decodeRegisterWrite 0 0b00 = some .runClear
    ∧ decodeRegisterWrite 0 0b11 = some (.softReset true) ∧ decodeRegisterWrite 0 0xFFFFFFFC = some .runClear := by decide
/-- NOTIFY: index in bits 0 to 7, domain in bits 8 to 10, kind in bits 12 and 13. -/
theorem test_decode_notify : decodeRegisterWrite 0x10 0x1342 = some (.sqTail 3 0x42) ∧ decodeRegisterWrite 0x10 0x2705 = some (.cqHead 7 5)
    ∧ decodeRegisterWrite 0x10 0x3805 = some (.eventHead 5) := by decide
/-- No row of the table has bits. -/
theorem test_decode_word : decodeTableWord 32 0x1342 = none ∧ rig.withFetchWord 32 0x1342 = rig := by decide +kernel
/-- A step takes the front happening and leaves the rest. -/
theorem test_step : (match step (setPending rig [.sqTail 1 3, .allocation]) with
    | .next t => (queueAt t 1).sqTail == 3 && t.pending == [.allocation]
    | .fault _ => false
    | .refused _ => false) = true := by decide +kernel

/-! ## Commands -/

/-- R136, 11.2: DONE with phase 1 in a VOTE's completion. -/
theorem test_vote_done : lastRecord wanting (.queue 1) = some [0x01, 0x80, 0x07, 0x00, 0xFF, 0, 0, 0, 0, 0, 0, 0, 0, 0, 0, 0] := by
  decide +kernel
/-- R124: a setpoint above the cap of 20 is DENIED, and no cell is written. -/
theorem test_vote_denied : lastHead (after (.vote 1 7 false 0 1 3 21) rig) 1 = some [0x01, 0x82, 7, 0, 0xFF]
    ∧ cellAt (after (.vote 1 7 false 0 1 3 21) rig) 1 1 = some { level := .on, setpoint := some 10 } := by decide +kernel
/-- R138: both cells are written. -/
theorem test_voteList_done : cellsOf (after (.voteList 1 7 false 0 2 (BitVec.ofNat 144 (ofBytes [1, 3, 8, 2, 2, 0xFF]))) rig) 1
    = [(1, { level := .on, setpoint := some 8 }), (2, { level := .retain, setpoint := none })] := by decide +kernel
/-- R137: a resource named twice is BAD_COMMAND with the index of the second entry. -/
theorem test_voteList_twice : lastHead (after (.voteList 1 7 false 0 2 (BitVec.ofNat 144 (ofBytes [1, 3, 8, 1, 3, 8]))) rig) 1
    = some [0x02, 0x83, 7, 0, 1] := by decide +kernel
/-- R139, R41: the withdrawn rail and its parent have target OFF and wait. -/
theorem test_withdraw_conditions : conds (after (.withdraw 1 7 1) rig) = [.waiting, .waiting, .steady, .locked] := by decide +kernel
/-- R139: an absent resource is BAD_RESOURCE. -/
theorem test_withdraw_absent : lastHead (after (.withdraw 1 7 9) rig) 1 = some [0x03, 0x84, 7, 0, 0xFF] := by decide +kernel
/-- R117, R120: DROWSY restarts the lease at 100 ms, 10,000 units, and the sleep map makes the rail wait for RETAIN. -/
theorem test_posture_drowsy : (domainAt (after (.posture 1 7 2) rig) 1).lease = some 10000
    ∧ conds (after (.posture 1 7 2) rig) = [.waiting, .waiting, .steady, .locked] := by decide +kernel
/-- R117: DETACHED stops the lease and keeps the cell. -/
theorem test_posture_detached : (domainAt detached 1).lease = none ∧ cellAt detached 1 1 = some { level := .on, setpoint := some 10 } := by
  decide +kernel
/-- R121, R140. -/
theorem test_renew : (domainAt renewed 1).lease = some 10000 ∧ lastHead renewed 1 = some [0x05, 0x80, 3, 0, 0xFF] := by decide +kernel
/-- R141, 11.2: level ON, target ON, vote ON, no sample; setpoint 10; STEADY; no fault. -/
theorem test_query : lastRecord (after (.query 1 7 false 0 1) rig) (.queue 1)
    = some [0x06, 0x80, 7, 0, 0x3F, 0x0A, 1, 0, 0, 0, 0, 0, 0, 0, 0, 0] := by decide +kernel
/-- R142, R152: a fresh QUERY takes entry 0 and places a SAMPLE request. -/
theorem test_query_fresh : (after (.query 1 7 true 0 1) rig).link.requests = [{ requester := .query 0, resource := 1 }] := by decide +kernel
/-- R143: D1's one cell is satisfied. -/
theorem test_fence : lastHead (after (.fence 1 7 0) rig) 1 = some [0x07, 0x81, 7, 0, 0xFF] := by decide +kernel
/-- R143, R156: with the gate still waiting, a FENCE waiter covers both cells. -/
theorem test_fence_waits : (tget (after (.fence 1 7 2) wanting).waiters 0)
    = some { domain := 1, tag := 7, body := .fence [1, 2], deadline := some 200 } := by decide +kernel
/-- R125: with a max level of RETAIN the ON cell is withdrawn. -/
theorem test_grant : cellAt (after (.grant 0 7 0 (BitVec.ofNat 64 (ofBytes [1, 1, 0, 0, 2, 20]))) rig) 1 1 = none := by decide +kernel
/-- R125: without its grant the waiter of D1 completes REVOKED before the completion of D0. -/
theorem test_revoke : lastHead (after (.revoke 0 7 0) waiting) 1 = some [0x01, 0x89, 7, 0, 0xFF] := by decide +kernel
/-- R129: a disabled domain has no cell and a DISABLED queue. -/
theorem test_setDomain : cellsOf (after (.setDomain 0 7 1 2 3 0) rig) 1 = [] ∧ (queueAt (after (.setDomain 0 7 1 2 3 0) rig) 1).state = .disabled := by
  decide +kernel
/-- R148: D0 cannot be a target. -/
theorem test_setDomain_d0 : lastHead (after (.setDomain 0 7 0 2 3 1) rig) 0 = some [0x12, 0x83, 7, 0, 0xFF] := by decide +kernel
/-- R91. -/
theorem test_clearFault : (resourceAt clearing 5).map Resource.cond = some .clearing
    ∧ clearing.link.requests = [{ requester := .clear 5, resource := 5 }] := by decide +kernel
/-- R149: a resource that is not LOCKED is IN_USE. -/
theorem test_clearFault_inUse : lastHead (after (.clearFault 0 7 0 1) rig) 0 = some [0x13, 0x8C, 7, 0, 0xFF] := by decide +kernel
/-- R90, R150: SAFE_LEFT carries the trip cause. -/
theorem test_clearSafe : (after (.clearSafe 0 7) (inSafe dark)).fault.safe = false
    ∧ lastEvent (after (.clearSafe 0 7) (inSafe dark)) = some [3, 0, 4, 0, 0] := by decide +kernel
/-- R150: rails above OFF keep SAFE set. -/
theorem test_clearSafe_inUse : lastHead (after (.clearSafe 0 7) (inSafe rig)) 0 = some [0x14, 0x8C, 7, 0, 0xFF] := by decide +kernel
/-- R144. -/
theorem test_releaseHold : (after (.releaseHold 0 7 1) (setHolds rig [(0, .on), (1, .on)])).holds = [(0, .on)]
    ∧ (after (.releaseHold 0 7 0xFF) (setHolds rig [(0, .on), (1, .on)])).holds = [] := by decide +kernel
/-- R23, R11: a new gate on endpoint 9 takes the default maps and is STEADY. -/
theorem test_configResource : (resourceAt (after (.configResource 0 7 7 true
      (BitVec.ofNat 128 (ofBytes [1, 3, 2, 9, 0, 1, 0, 0, 0, 0, 1, 0, 0, 0, 0, 0x11]))) rig) 7).map
      (fun x => (x.cfg.sleepMap, x.cfg.detachMap, x.cond)) = some (.retain, .off, .steady) := by decide +kernel
/-- R145: a rail above OFF is IN_USE. -/
theorem test_configResource_inUse : lastHead (after (.configResource 0 7 1 false 0) rig) 0 = some [0x16, 0x8C, 7, 0, 0xFF] := by decide +kernel

/-! ## Register writes, resets and loading -/

/-- R169: 3 is below the size of 4. -/
theorem test_sqTail : (queueAt pendingThree 1).sqTail = 3 := by decide +kernel
/-- R169, R176: 4 is not; QUEUE_ERROR names D1 and reason 1. -/
theorem test_sqTail_bad : (queueAt (after (.sqTail 1 4) rig) 1).state = .halted ∧ lastEvent (after (.sqTail 1 4) rig) = some [7, 1, 1, 0, 0] := by
  decide +kernel
/-- R170: the one written completion is released. -/
theorem test_cqHead : (queueAt (after (.cqHead 1 1) renewed) 1).cqHead = 1 ∧ (queueAt (after (.cqHead 1 1) renewed) 1).armed = true := by
  decide +kernel
/-- R170: 2 lies past the tail. -/
theorem test_cqHead_bad : (queueAt (after (.cqHead 1 2) renewed) 1).state = .halted := by decide +kernel
/-- R179. -/
theorem test_eventHead : (after (.eventHead 1) (setEvents rig { rig.events with tail := 1 })).events.head = 1
    ∧ (after (.eventHead 2) (setEvents rig { rig.events with tail := 1 })).events.enabled = false := by decide +kernel
/-- R184: the two lowest bits are not kept. -/
theorem test_cbAddressLow : (after (.cbAddressLow 0x1237) State.reset).run.cbAddr = 0x1234 := by decide +kernel
theorem test_cbAddressHigh : (after (.cbAddressHigh 1) State.reset).run.cbAddr = 0x100000000 := by decide +kernel
/-- R185. -/
theorem test_runSet : loading.run.state = .loading ∧ loading.host.loadReads = [{ part := .header, addr := 0, live := true }] := by decide +kernel
/-- R185: the block would pass the top of the address space. -/
theorem test_runSet_bus : (after .runSet (setRun State.reset { resetRun with cbAddr := 0xFFFFFFFFFFFFFA00 })).run.loadError = .bus := by
  decide +kernel
/-- R189: every target is OFF, and the rails wait for it. -/
theorem test_runClear : conds (after .runClear rig) = [.waiting, .waiting, .steady, .locked] ∧ (after .runClear rig).run.state = .stopping := by
  decide +kernel
/-- R183: refused in RUNNING. -/
theorem test_softReset : (after (.softReset true) rig).run.resetRefused = true ∧ (after (.softReset true) rig).run.state = .running := by
  decide +kernel
/-- R191: the address is kept in a soft reset. -/
theorem test_softReset_stopped : (after (.softReset true) (setRun State.reset { resetRun with cbAddr := 8, resetRefused := true })).run
    = { resetRun with cbAddr := 8 } := by decide +kernel
theorem test_registerWriteIgnored : after (.registerWriteIgnored 4 1) rig = rig := rfl
theorem test_hardwareReset : after .hardwareReset rig = State.reset := by decide +kernel
/-- R185: the rest is read from 32 bytes on. -/
theorem test_loadHeaderData : loadingBody.host.loadReads = [{ part := .body, addr := 32, live := true }] := by decide +kernel
/-- R186: version 2. -/
theorem test_loadHeaderData_version : (after (.loadHeaderData 0 (header + 2 ^ 32)) loading).run.loadError = .version := by decide +kernel
/-- R187, R27: the rail stands at its initial level ON with its nominal setpoint 12 and owes alignment, and its hold cell holds ON. -/
theorem test_loadBodyData : (after (.loadBodyData 0 block) loadingBody).run.state = .aligning
    ∧ (after (.loadBodyData 0 block) loadingBody).holds = [(0, .on)]
    ∧ (resourceAt (after (.loadBodyData 0 block) loadingBody) 0).map (fun x => (x.level, x.setpoint, x.alignOwed)) = some (.on, some 12, true) := by
  decide +kernel
/-- R186: the words no longer sum to 0. -/
theorem test_loadBodyData_checksum : (after (.loadBodyData 0 (block + 1)) loadingBody).run.loadError = .checksum := by decide +kernel
theorem test_loadBusError : (after (.loadBusError 0) loading).run.state = .stopped ∧ (after (.loadBusError 0) loading).run.loadError = .bus := by
  decide +kernel
/-- R188: ALIGN_DONE. -/
theorem test_endOfAlignment : (after .endOfAlignment (inRun .aligning rig)).run.state = .running
    ∧ lastEvent (after .endOfAlignment (inRun .aligning rig)) = some [9, 0xFF, 0, 0, 0] := by decide +kernel
/-- R190: STOP_DONE, with every resource at OFF. -/
theorem test_endOfStopping : (after .endOfStopping (inRun .stopping dark)).run.state = .stopped
    ∧ lastEvent (after .endOfStopping (inRun .stopping dark)) = some [10, 0xFF, 0, 0, 0] := by decide +kernel

/-! ## Steps, link and timers -/

/-- R56, R57: slot 0 takes the gate's RAISE. -/
theorem test_allocation : (stepAt placed 0).map (fun st => (st.resource, st.direction, st.goal.level)) = some (2, .raise, .on)
    ∧ conds placed = [.steady, .steady, .stepping, .locked] := by decide +kernel
/-- R101, 11.4: SET ON to endpoint 2 channel 1, without a setpoint. -/
theorem test_linkGrant : issued.link.transaction.map Transaction.frame = some [0x02, 0x11, 0x03, 0x00, 0x10] := by decide +kernel
/-- 11.4: SET ON 10 to endpoint 2 channel 0. -/
theorem test_setFrame : setFrame 2 0 { level := .on, setpoint := some 10 } = [0x02, 0x10, 0x83, 0x0A, 0x9B] := by decide
/-- R59: settle limit 3 is 150 µs. -/
theorem test_answer_ack : (stepAt settling 0).map Step.state = some (.settling 15) := by decide +kernel
/-- R99, R62: a frame whose bytes do not cancel is a timeout, and the step tries again. -/
theorem test_answer_bad : (stepAt (after (.answer [0x02, 0x81, 0x82]) issued) 0).map (fun st => (st.state, st.retries)) = some (.awaitingLink, 1) := by
  decide +kernel
/-- R62, R63, R79: out of retries the gate is LOCKED. -/
theorem test_responseTimeout : conds (after .responseTimeout (setStep issued 0
    { resource := 2, direction := .raise, purpose := .normal, origin := { level := .off, setpoint := none }, goal := { level := .on, setpoint := none },
      retries := 1, early := false, state := .issued })) = [.steady, .steady, .locked, .locked] := by decide +kernel
/-- R61, 11.3: FAULT of resource 2, NO_SETTLE, action LOCK. -/
theorem test_settleTimeout : lastEvent (after (.settleTimeout 0) settling) = some [1, 2, 4, 1, 0] := by decide +kernel
/-- R64: nothing was recorded yet, so the gate waits again. -/
theorem test_holdExpiry : stepAt (after (.holdExpiry 0) holding) 0 = none
    ∧ conds (after (.holdExpiry 0) holding) = [.steady, .steady, .waiting, .locked] := by decide +kernel
/-- R103. -/
theorem test_noticeFrameStart : (after .noticeFrameStart rig).link.receiving = some true := by decide +kernel
/-- R103, 11.4: ALERT of endpoint 2 channel 0 with OVERCURRENT. -/
theorem test_noticeArrival : (after (.noticeArrival [0x02, 0xD0, 0x01, 0xD3]) (after .noticeFrameStart rig)).link.notices
    = [{ endpoint := 2, channel := 0, kind := .alert { overcurrent := true, undervolt := false, overtemp := false } }] := by decide +kernel
/-- R104: a frame that fails the frame check is a BAD_FRAME stray. -/
theorem test_noticeArrival_bad : lastEvent (after (.noticeArrival [0x02, 0xD0, 0x01, 0xD2]) rig) = some [8, 0xFF, 1, 0, 0] := by decide +kernel
/-- R77, R79: the policy CUT locks the rail and collapses the gate below, which was at OFF. -/
theorem test_noticeTake : conds (after .noticeTake (after (.noticeArrival [0x02, 0xD0, 0x01, 0xD3]) rig)) = [.waiting, .locked, .steady, .locked]
    ∧ (after .noticeTake (after (.noticeArrival [0x02, 0xD0, 0x01, 0xD3]) rig)).fault.cutList = [{ resource := 1, attempts := 0 }] := by decide +kernel
/-- R87: the policy TRIP of the root enters SAFE. -/
theorem test_noticeTake_trip : (after .noticeTake (after (.noticeArrival [0x01, 0xD0, 0x04, 0xD5]) rig)).fault.tripCause
    = some { resource := 0, kind := .overtemp } := by decide +kernel
/-- R106. -/
theorem test_pollPeriodExpiry : (after .pollPeriodExpiry (setLink rig { rig.link with pollPeriod := 10, pollTimer := some 0 })).link.pollTimer
    = some 1000 := by decide +kernel
/-- R122: LEASE_LOST of D1, which was ACTIVE. -/
theorem test_leaseExpiry : (domainAt (after (.leaseExpiry 1) expired) 1).posture = some .detached
    ∧ lastEvent (after (.leaseExpiry 1) expired) = some [6, 1, 1, 0, 0] := by decide +kernel
/-- R120, R122: a lease with time left does not expire, nor does one that was restarted as it reached 0. -/
theorem test_leaseExpiry_early : after (.leaseExpiry 1) rig = rig
    ∧ (domainAt (after (.leaseExpiry 1) (after (.renew 1 3) expired)) 1).posture = some .active := by decide +kernel
/-- R157: TIMED_OUT. -/
theorem test_deadlineExpiry : lastHead (after (.deadlineExpiry 0) waiting) 1 = some [0x01, 0x8A, 7, 0, 0xFF] := by decide +kernel

/-! ## Intake and outcomes -/

/-- R165, R173: entry 2 is read at 0x100 + 2 * 32. -/
theorem test_intakeGrant_address :
    (after .intakeGrant (setQueue pendingThree 1 { queueAt pendingThree 1 with sqHead := 2 })).intake.fetch.map Fetch.addr = some 0x140 := by
  decide +kernel
/-- R172: the turn of D0 ends because it has nothing pending, and D1's begins. -/
theorem test_intakeGrant : fetching.intake = { current := 1, turn := 1, fetch := some { domain := 1, index := 0, addr := 0x100, void := false } } := by
  decide +kernel
/-- R173, 11.2: a RENEW is fetched; the head advances. -/
theorem test_fetchData : (queueAt (after (.fetchData (BitVec.ofNat 256 (ofBytes [5, 0, 3, 0]))) fetching) 1).sqHead = 1
    ∧ lastHead (after (.fetchData (BitVec.ofNat 256 (ofBytes [5, 0, 3, 0]))) fetching) 1 = some [0x05, 0x80, 3, 0, 0xFF] := by decide +kernel
/-- R132: 8 is no command code. -/
theorem test_fetchData_code : lastHead (after (.fetchData (BitVec.ofNat 256 (ofBytes [8, 0, 3, 0]))) fetching) 1 = some [0x08, 0x83, 3, 0, 0xFF] := by
  decide +kernel
/-- R173, R176. -/
theorem test_fetchBusError : (queueAt (after .fetchBusError fetching) 1).state = .halted ∧ (queueAt (after .fetchBusError fetching) 1).sqHead = 0 := by
  decide +kernel
/-- R174, R175: the record goes before its message; a bus error on the message halts the queue. -/
theorem test_queueWriteOutcome : renewed.host.writes.map (fun w => (w.addr, w.data.length)) = [(0x1000, 16), (0x2000, 4)]
    ∧ (queueAt (after (.queueWriteOutcome 1 true) renewed) 1).state = .halted := by decide +kernel
/-- R180. -/
theorem test_eventWriteOutcome : (after (.eventWriteOutcome 0 true) (after (.leaseExpiry 1) expired)).events.enabled = false
    ∧ (after (.eventWriteOutcome 0 false) (after (.leaseExpiry 1) expired)).events.enabled = true := by decide +kernel

/-! ## States for the witnesses -/

/-- The rig with every waiter entry taken, by D0. -/
def crowd (s : State) : State :=
  setWaiters s ((List.range 32).map fun k => (k, { domain := 0, tag := 0, body := .fence [], deadline := none }))
/-- The rig with two gates more, in the last slots. -/
def wide : State := setResources rig (rigResources
  ++ [(62, resourceOf { railCfg 4 [] 0 .report with kind := .gate, nominal := none, slew := none } .off none .steady),
      (63, resourceOf { railCfg 5 [] 0 .report with kind := .gate, nominal := none, slew := none } .off none .steady)])
/-- An answer that refuses with reason 4, of the gate's endpoint channel. -/
def gateNak : List Byte := [0x02, 0x91, 0x04, 0x97]
/-- The gate's step has used its one retry. -/
def lastTry : State := setStep issued 0
  { resource := 2, direction := .raise, purpose := .normal, origin := { level := .off, setpoint := none }
    goal := { level := .on, setpoint := none }, retries := 1, early := false, state := .issued }
/-- The gate settled before its SET was acknowledged. -/
def earlySettled : State := setStep issued 0
  { resource := 2, direction := .raise, purpose := .normal, origin := { level := .off, setpoint := none }
    goal := { level := .on, setpoint := none }, retries := 0, early := true, state := .issued }
/-- The clock is CLEARING, the gate waits, and a step and a CLEAR are requested, the CLEAR first. -/
def crossing : State := after .allocation (after (.clearFault 0 9 0 5) waiting)
/-- The child rail was cut, and its SET OFF is on the link. -/
def cutting : State := after .linkGrant (after .noticeTake (after (.noticeArrival [0x02, 0xD0, 0x01, 0xD3]) rig))
/-- The clock's CLEAR is on the link. -/
def clearSent : State := after .linkGrant clearing
/-- A fresh QUERY's SAMPLE of the child rail is on the link. -/
def sampling : State := after .linkGrant (after (.query 1 7 true 0 1) rig)
/-- The poller has asked. -/
def polling : State := after .pollPeriodExpiry (setLink rig { rig.link with pollPeriod := 10, pollTimer := some 0 })
/-- The poll of the root rail is on the link. -/
def polled : State := after .linkGrant polling
/-- DATA of a channel 0, with voltage 3 and no flag. -/
def dataOf (endpoint : Byte) : List Byte := [endpoint, 0xA0, 3, 0, 0, 0, endpoint ^^^ 0xA3]
/-- The QUERY that asked for it has no attempt left. -/
def lastSampling : State := setWaiters sampling [(0, { domain := 1, tag := 7, body := .query 1 1, deadline := none })]
/-- The poll of the root rail has no attempt left. -/
def lastPolled : State := setLink polled { polled.link with currentPoll := some { resource := 0, attempts := 1 } }
/-- DATA of endpoint 2 channel 0 with voltage 3 and the flag OVERCURRENT. -/
def hotData : List Byte := [2, 0xA0, 3, 0, 0x10, 0, 0xB1]
/-- The QUERY ended as its domain became DETACHED, and its SAMPLE runs on. -/
def orphaned : State := after (.posture 1 7 3) sampling
/-- The gate's step is settling, and the gate has no hold. -/
def settlingFast : State :=
  setResources settling (tmap (fun _ x => { x with cfg := { x.cfg with hold := 0 } }) settling.resources)
/-- A record of a gate without parents at endpoint 9, and one whose present bit is clear. -/
def gateRecord : BitVec 128 := BitVec.ofNat 128 (ofBytes [1, 3, 2, 9, 0, 0, 0, 0, 0, 0, 1, 0, 0, 0, 0, 0x11])
def emptyRecord : BitVec 128 := BitVec.ofNat 128 (ofBytes [0, 3, 2, 9, 0, 0, 0, 0, 0, 0, 1, 0, 0, 0, 0, 0x11])
/-- A SETTLED notice of the gate stands at the head of the FIFO. -/
def noticed (s : State) (kind : NoticeKind) : State := setLink s { s.link with notices := [{ endpoint := 2, channel := 1, kind := kind }] }
/-- A part with waiters, a step, a clear record and the notices of a full FIFO but one, whose frame is in reception. -/
def lively : State :=
  setPending (setLink crossing { crossing.link with notices := List.replicate 15 { endpoint := 2, channel := 1, kind := .settled }
                                                    receiving := some true }) [.noticeArrival [0x02, 0xC1, 0xC3]]

/-- A waiter of each kind: D1 waits for the gate, for the gate and the clock, for its cells and for a sample of the rail and of the gate; D0
waits for the clock's CLEAR and for the clock at OFF. -/
def manyWaiters (s : State) : State := setWaiters s
  [(0, { domain := 1, tag := 7, body := .vote 2 { level := .on, setpoint := none }, deadline := none }),
   (1, { domain := 1, tag := 8, body := .list [(2, { level := .on, setpoint := none }), (5, { level := .on, setpoint := some 3 })]
         deadline := none }),
   (2, { domain := 1, tag := 9, body := .fence [1, 2], deadline := some 5 }),
   (3, { domain := 1, tag := 10, body := .query 1 0, deadline := none }),
   (4, { domain := 1, tag := 11, body := .query 2 0, deadline := none }),
   (5, { domain := 0, tag := 12, body := .clear 5, deadline := none }),
   (6, { domain := 0, tag := 13, body := .vote 5 { level := .off, setpoint := none }, deadline := none })]
/-- Waiters of each kind stand, and the queues of D0 and D1, to which they complete, are ENABLED. -/
def AllWait (s : State) : Prop := s.waiters = (manyWaiters rig).waiters ∧ (queueAt s 0).state = .enabled ∧ (queueAt s 0).desc = some ring
  ∧ (queueAt s 1).state = .enabled ∧ (queueAt s 1).desc = some ring
/-- The gate is at ON and its step holds. -/
def held : State := setResource holding 2 { cfg := { railCfg 2 [1] 0 .report with kind := .gate, channel := 1, nominal := none, slew := none },
                                            level := .on, setpoint := none, cond := .stepping, alignOwed := false, lastFault := none,
                                            faultCount := 0, lastSample := none }
/-- A RAISE of the gate in slot 62, which is below no rail, with its retry used; the gate in slot 63 owes alignment. -/
def beside (st : StepState) : State :=
  setSteps (setResources wide (tmap (fun r x => if r = 62 then { x with cond := .stepping } else if r = 63 then
    { x with cond := .waiting, alignOwed := true } else x) wide.resources))
    [(0, { resource := 62, direction := .raise, purpose := .normal, origin := { level := .off, setpoint := none }
           goal := { level := .on, setpoint := none }, retries := 1, early := false, state := st })]

/-! ## Witnesses: states and operands that meet the hypotheses -/

theorem witness_StepTakesTheFrontHappening : (setPending rig [.allocation, .linkGrant]).pending = .allocation :: [.linkGrant] := rfl

theorem witness_IdleStepCountsTimersDown : holding.pending = []
    ∧ (tget (after (.vote 1 7 true 5 2 3 0xFF) holding).waiters 0).isSome = true
    ∧ (after (.vote 1 7 true 5 2 3 0xFF) holding).pending = []
    ∧ (stepAt settling 0).map Step.state = some (.settling 15) ∧ settling.pending = []
    ∧ (stepAt holding 0).map Step.state = some (.holding 2)
    ∧ (issued.link.transaction.map Transaction.timer) = some 20 ∧ issued.pending = []
    ∧ State.reset.run.state = .stopped ∧ State.reset.pending = [] ∧ (inRun .aligning rig).run.state ≠ .running
    ∧ rig.pending = [] ∧ rig.run.state = .running ∧ (domainAt rig 1).enabled = true ∧ (domainAt rig 1).posture = some .active
    ∧ (domainAt rig 1).leasePeriod = 1 ∧ (domainAt rig 1).lease = some 7
    ∧ (stepAt placed 0).map Step.state = some .awaitingLink ∧ placed.pending = []
    ∧ (stepAt issued 0).map Step.state = some .issued ∧ stepAt placed 3 = none
    ∧ (domainAt (after (.posture 1 7 2) rig) 1).posture = some .drowsy ∧ (after (.posture 1 7 2) rig).pending = []
    ∧ ¬ (setRun rig { rig.run with subTick := 99 }).run.subTick + 1 < 100
    ∧ (setRun rig { rig.run with subTick := 98 }).run.subTick + 1 < 100 := by decide +kernel

/-- Fifteen notices and one in reception: the FIFO's last place. -/
theorem witness_EveryStepKeepsTheNoticeLaw : NoticeLaw lively ∧ ∃ t, step lively = .next t :=
  ⟨by unfold NoticeLaw; decide +kernel, _, rfl⟩

theorem witness_EveryStepKeepsTheGrantLaw : GrantLaw lively ∧ ∃ t, step lively = .next t :=
  ⟨by unfold GrantLaw; decide +kernel, _, rfl⟩

theorem witness_EveryStepKeepsTheTableLaw : TableLaw lively ∧ ∃ t, step lively = .next t :=
  ⟨{ resources := by unfold TableWithin; decide +kernel, votes := by unfold TableWithin; decide +kernel
     holds := by unfold TableWithin; decide +kernel, grants := by unfold TableWithin; decide +kernel
     steps := by unfold TableWithin; decide +kernel, clears := by unfold TableWithin; decide +kernel
     waiters := by unfold TableWithin; decide +kernel }, _, rfl⟩

theorem lively_noFetch : lively.intake.fetch = none := by decide +kernel
theorem lively_noWrites : lively.host.writes = [] := by decide +kernel
theorem lively_ring (d : Domain) : (queueAt lively d).desc = some ring := by revert d; decide +kernel
theorem lively_room : ∀ d : Domain, (queueAt lively d).cqTail < 8 ∧ (queueAt lively d).cqHead < 8
    ∧ writtenCount (queueAt lively d) + (queueAt lively d).reservations + fetchReservation lively d ≤ 7 := by decide +kernel

theorem witness_EveryStepKeepsTheRingLaw : RingLaw lively ∧ ∃ t, step lively = .next t :=
  ⟨{ sorted := by decide +kernel, counted := by decide +kernel, closed := by decide +kernel
     room := fun d _ => ⟨ring, lively_ring d, lively_room d⟩
     fetched := fun f h => by rw [lively_noFetch] at h; cases h
     written := fun w h => by rw [lively_noWrites] at h; cases h
     together := fun d e => by rw [lively_ring, lively_ring]
     sizes := fun d desc h => by rw [lively_ring] at h; cases h; decide
     agree := by decide +kernel, running := fun h => absurd (by decide +kernel) h
     loads := by decide +kernel }, _, rfl⟩

theorem lively_level : ∀ e ∈ lively.resources, ∀ p ∈ e.2.cfg.parents,
    (resourceAt lively p).any (fun y => levelLe e.2.level y.level) = true := by decide +kernel
theorem lively_goal : ∀ e ∈ lively.steps, ∀ p ∈ parentsOf lively e.2.resource,
    (resourceAt lively p).all (fun y => levelLe e.2.goal.level y.level) = true := by decide +kernel
theorem lively_rise : ∀ e ∈ lively.steps,
    (resourceAt lively e.2.resource).all (fun x => levelLe x.level e.2.goal.level) = true ∧ e.2.direction ≠ .lower := by decide +kernel

theorem witness_EveryStepKeepsTheResourceLaw : ResourceLaw lively ∧ LevelLaw lively ∧ ∃ t, step lively = .next t :=
  ⟨by constructor <;> decide +kernel,
   { shallow := by decide +kernel
     level := fun e he p hp => (Option.any_eq_true _ _).mp (lively_level e he p hp)
     goal := fun e he _ p hp => (Option.all_eq_true _ _).mp (lively_goal e he p hp)
     lower := fun e he _ hd => absurd hd (lively_rise e he).2
     rise := fun e he _ _ => (Option.all_eq_true _ _).mp (lively_rise e he).1 }, _, rfl⟩

/-- Both halves in STOPPED and in RUNNING; offsets 0x04 and 0x14; each value of CONTROL's two bits and each kind of NOTIFY, at the last index and
domain; values that differ in ignored bits. -/
theorem witness_RegisterWindow : State.reset.run.state = .stopped ∧ rig.run.state ≠ .stopped
    ∧ (0xFFFFFFFC : BitVec 32).toNat % 4 = 0 ∧ (0xFFFFFFFD : BitVec 32).toNat % 4 = 1 ∧ (0xFFFFFFFE : BitVec 32).toNat % 4 = 2
    ∧ (0xFFFFFFFF : BitVec 32).toNat % 4 = 3
    ∧ (∀ k ∈ [1, 2, 3], (BitVec.ofNat 32 (0x7FF + 4096 * k)).toNat % 256 = (0xFF : Byte).toNat
        ∧ (BitVec.ofNat 32 (0x7FF + 4096 * k)).toNat / 256 % 8 = (7 : Domain).val
        ∧ (BitVec.ofNat 32 (0x7FF + 4096 * k)).toNat / 4096 % 4 = k)
    ∧ (0xFFFFFFFD : BitVec 32).extractLsb' 0 2 = (1 : BitVec 32).extractLsb' 0 2
    ∧ (0xFFFF_D842 : BitVec 32).extractLsb' 0 11 = (0x1042 : BitVec 32).extractLsb' 0 11
    ∧ (0xFFFF_D842 : BitVec 32).extractLsb' 12 2 = (0x1042 : BitVec 32).extractLsb' 12 2
    ∧ (0x1042 : BitVec 32).extractLsb' 12 2 ≠ 0
    ∧ 0x14 ≤ (0x14 : BitVec 32).toNat ∧ (0xC842 : BitVec 32).extractLsb' 12 2 = 0 := by decide

/-- The last address at which the block fits, and the next one; both load reads. -/
theorem witness_LoadsStartAndAreAbandoned : State.reset.run.state = .stopped ∧ rig.run.state ≠ .stopped
    ∧ (0xFFFFFFFFFFFFF9DC : BitVec 64).toNat + 1572 ≤ 2 ^ 64 ∧ 2 ^ 64 < (0xFFFFFFFFFFFFF9E0 : BitVec 64).toNat + 1572
    ∧ (after (.cbAddressLow 0xFFFFF9DC) (after (.cbAddressHigh 0xFFFFFFFF) State.reset)).run.cbAddr = 0xFFFFFFFFFFFFF9DC
    ∧ (after (.cbAddressLow 0xFFFFF9E0) (after (.cbAddressHigh 0xFFFFFFFF) State.reset)).run.cbAddr = 0xFFFFFFFFFFFFF9E0
    ∧ (inRun .stopping rig).run.state = .stopping ∧ loading.run.state = .loading := by decide +kernel

theorem witness_RunClearEntersStopping : rig.run.state = .running ∧ (inRun .aligning rig).run.state = .aligning
    ∧ (resourceAt (after .runClear lively) 5).isSome = true ∧ (stepAt (after .runClear holding) 0).isSome = true
    ∧ (manyWaiters rig).run.state = .running ∧ hasStep rig 5 = false ∧ (beside .awaitingLink).run.state = .running
    ∧ (stepAt (beside .awaitingLink) 0).map isBarred = some true ∧ (stepAt (beside .issued) 0).map isBarred = some false
    ∧ (resourceAt (beside .awaitingLink) 62).isSome = true := by decide +kernel

/-- Waiters of each kind stand in the rig, and the law of steps holds beside the tree. -/
theorem witness_RunClearEntersStopping_lawful :
    AllWait (manyWaiters rig) ∧ ResourceLaw (beside .awaitingLink) ∧ ResourceLaw (beside .issued) :=
  ⟨by unfold AllWait; decide +kernel, by constructor <;> decide +kernel, by constructor <;> decide +kernel⟩

theorem witness_ResetsReturnEveryBlock : State.reset.run.state = .stopped ∧ rig.run.state ≠ .stopped ∧ loading.run.state ≠ .stopped := by
  decide +kernel

/-- A good header; a header, a rest and a bus error that fail; an abandoned load. -/
theorem witness_LoadsAskForTheRestOrFail :
    loading.host.loadReads[0]? = some { part := .header, addr := 0, live := true }
    ∧ fieldOf header 0 4 = 0x42435A44 ∧ fieldOf header 4 2 = 1 ∧ fieldOf header 6 2 = 1572
    ∧ headerError (header + 1) = some .signature ∧ headerError (header + 2 ^ 32) = some .version
    ∧ loadingBody.host.loadReads[0]? = some { part := .body, addr := 32, live := true }
    ∧ bodyError loadingBody.run.loadHeader (block + 1) = some .checksum
    ∧ (after .runClear loading).host.loadReads[0]? = some { part := .header, addr := 0, live := false }
    ∧ (after .runClear loadingBody).host.loadReads[0]? = some { part := .body, addr := 32, live := false } := by decide +kernel

theorem witness_SuccessfulLoadTakesTheBlock :
    loadingBody.host.loadReads[0]? = some { part := .body, addr := 32, live := true }
    ∧ bodyError loadingBody.run.loadHeader block = none := by decide +kernel

theorem witness_EndsOfAlignmentAndOfStopping : (inRun .aligning rig).run.state = .aligning
    ∧ (∀ e ∈ (inRun .aligning rig).resources, e.2.alignOwed = false) ∧ (inRun .aligning rig).fault.cutList = []
    ∧ rig.run.state ≠ .aligning ∧ (∃ e ∈ (after (.loadBodyData 0 block) loadingBody).resources, e.2.alignOwed = true)
    ∧ cutting.fault.cutList ≠ []
    ∧ (inRun .stopping dark).run.state = .stopping ∧ (∀ e ∈ (inRun .stopping dark).resources, e.2.level = .off)
    ∧ (inRun .stopping dark).steps = [] ∧ (inRun .stopping dark).fault.cutList = []
    ∧ rig.run.state ≠ .stopping ∧ (∃ e ∈ (inRun .stopping rig).resources, e.2.level ≠ .off) ∧ placed.steps ≠ [] := by decide +kernel

/-- Forced by a lock, by CLEARING, by SAFE and by each run state; the root of a chain in RUNNING; at ON with a vote's setpoint, at ON without one, a gate
at ON, and at OFF. -/
theorem witness_DerivedTarget : (resourceAt rig 5).map Resource.cond = some .locked
    ∧ (resourceAt clearing 5).map Resource.cond = some .clearing
    ∧ ((inSafe rig).fault.safe = true ∧ (resourceAt (inSafe rig) 0).isSome = true)
    ∧ (inRun .stopping rig).run.state = .stopping ∧ (inRun .stopped rig).run.state = .stopped ∧ (inRun .loading rig).run.state = .loading
    ∧ tsorted rig.resources = true ∧ isShallow (presentConfigs rig) = true ∧ (resourceAt rig 0).map Resource.cond = some .steady
    ∧ rig.fault.safe = false ∧ rig.run.state = .running ∧ (inRun .aligning rig).run.state = .aligning
    ∧ (targetOf rig 1 = some { level := .on, setpoint := some 10 }
      ∧ ((resourceAt rig 1).map fun x => (effectiveVotes rig 1 x.cfg).map Setting.setpoint) = some [some 10])
    ∧ (targetOf rig 0 = some { level := .on, setpoint := some 12 }
      ∧ ((resourceAt rig 0).map fun x => (effectiveVotes rig 0 x.cfg).map Setting.setpoint) = some [])
    ∧ targetOf wanting 2 = some { level := .on, setpoint := none } ∧ targetOf rig 2 = some { level := .off, setpoint := none } := by
  decide +kernel

/-- D1 in RUNNING with room: the state in which most commands are taken. -/
theorem witness_taking_own : Taking rig 1 := by unfold Taking; decide +kernel
/-- D0 in RUNNING with room: the state in which administrative commands are taken. -/
theorem witness_taking_admin : Taking rig 0 := by unfold Taking; decide +kernel

theorem witness_CommandsTurnedAway : ticketOf (.renew 1 3) = some { domain := 1, code := codeRenew, tag := 3 }
    ∧ (canHandOver (inRun .stopping rig) 1 = true ∧ (inRun .stopping rig).run.state ≠ .running)
    ∧ ticketOf (.clearSafe 1 3) = some { domain := 1, code := codeClearSafe, tag := 3 }
    ∧ (Taking rig 1 ∧ (1 : Domain) ≠ 0 ∧ isAdministrative codeClearSafe = true)
    ∧ canHandOver rig 2 = false ∧ canHandOver (inRun .aligning rig) 1 = false :=
  ⟨rfl, by decide +kernel, rfl, ⟨witness_taking_own, by decide, by decide⟩, by decide +kernel, by decide +kernel⟩

theorem witness_RenewRestartsTheLease : Taking rig 1 ∧ (domainAt rig 1).lease = some 7 ∧ Taking rig 0 ∧ (domainAt rig 0).lease = none :=
  ⟨witness_taking_own, by decide +kernel, witness_taking_admin, by decide +kernel⟩

/-- A locked clock at its highest setpoint; a rail at the cap; a DETACHED domain; a vote that is met as it is cast. -/
theorem witness_VoteWritesItsCellAndCompletes : Taking rig 1 ∧ rig.fault.safe = false
    ∧ (voteOf .clock 3 7 = some { level := .on, setpoint := some 7 } ∧ voteAllowed rig.grants 1 5 { level := .on, setpoint := some 7 } = true
        ∧ isLockedOut rig 5 = true)
    ∧ (voteOf .rail 3 20 = some { level := .on, setpoint := some 20 }
        ∧ voteAllowed rig.grants 1 1 { level := .on, setpoint := some 20 } = true ∧ isLockedOut rig 1 = false)
    ∧ (Taking detached 1 ∧ isDetached detached 1 = true ∧ isLockedOut detached 2 = false
        ∧ voteOf .gate 3 0xFF = some { level := .on, setpoint := none })
    ∧ (isDetached rig 1 = false ∧ voteOf .rail 3 10 = some { level := .on, setpoint := some 10 }
        ∧ satisfiedAt (writeCells (restartLease rig 1) 1 [(1, { level := .on, setpoint := some 10 })]).state 1
            { level := .on, setpoint := some 10 } = true) :=
  ⟨witness_taking_own, by decide +kernel, by decide +kernel, by decide +kernel,
    ⟨by unfold Taking; decide +kernel, by decide +kernel⟩, by decide +kernel⟩

theorem witness_VoteLeavesAWaiter : Taking rig 1 ∧ (resourceAt rig 2).map (fun x => x.cfg.kind) = some .gate
    ∧ voteOf .gate 3 0xFF = some { level := .on, setpoint := none } ∧ voteAllowed rig.grants 1 2 { level := .on, setpoint := none } = true
    ∧ isLockedOut rig 2 = false ∧ isDetached rig 1 = false
    ∧ satisfiedAt (writeCells (restartLease rig 1) 1 [(2, { level := .on, setpoint := none })]).state 2
        { level := .on, setpoint := none } = false
    ∧ entryFreeAfter rig (supersededBy rig 1 [2]) = true
    ∧ (Taking (crowd rig) 1 ∧ entryFreeAfter (crowd rig) (supersededBy (crowd rig) 1 [2]) = false
        ∧ satisfiedAt (writeCells (restartLease (crowd rig) 1) 1 [(2, { level := .on, setpoint := none })]).state 2
            { level := .on, setpoint := none } = false) :=
  ⟨witness_taking_own, by decide +kernel, by decide +kernel, by decide +kernel, by decide +kernel, by decide +kernel, by decide +kernel,
    by decide +kernel, by unfold Taking; decide +kernel, by decide +kernel⟩

/-- Waiters of D1 that a VOTE, a list and a WITHDRAW of the gate supersede, with the cell and the entries that these take. -/
theorem witness_superseded : (Taking (manyWaiters wanting) 1 ∧ AllWait (manyWaiters wanting))
    ∧ (cellAt (manyWaiters wanting) 1 2).isSome = true
    ∧ supersededBy (manyWaiters wanting) 1 [2] = [0, 1] ∧ entryFreeAfter (manyWaiters wanting) (supersededBy (manyWaiters wanting) 1 [2]) = true
    ∧ (checkEntries (manyWaiters wanting) 1 0 [] (listEntries (BitVec.ofNat 144 (ofBytes [2, 3, 255])) 1)).toOption
      = some [(2, { level := .on, setpoint := none })] :=
  ⟨by unfold Taking AllWait; decide +kernel, by decide +kernel, by decide +kernel, by decide +kernel, by decide +kernel⟩

/-- SAFE; an absent slot; levels 0 and 4; a rail at 32, a clock at 8, a gate with a setpoint, a rail at OFF with one; one above the cap. -/
theorem witness_VoteRefusals : Taking (inSafe rig) 1 ∧ (inSafe rig).fault.safe = true ∧ Taking rig 1 ∧ rig.fault.safe = false
    ∧ resourceAt rig 9 = none ∧ resourceAt rig 255 = none
    ∧ (∀ l ∈ [0, 4], l ≠ 1 ∧ l ≠ 2 ∧ l ≠ 3)
    ∧ (resourceAt rig 1).map (fun x => x.cfg.kind) = some .rail ∧ (31 < 32)
    ∧ (resourceAt rig 5).map (fun x => x.cfg.kind) = some .clock ∧ (7 < 8)
    ∧ (resourceAt rig 2).map (fun x => x.cfg.kind) = some .gate ∧ (0 ≠ 0xFF)
    ∧ voteOf .rail 3 21 = some { level := .on, setpoint := some 21 }
    ∧ voteAllowed rig.grants 1 1 { level := .on, setpoint := some 21 } = false :=
  ⟨by unfold Taking; decide +kernel, by decide +kernel, witness_taking_own, by decide +kernel⟩

/-- Lists of one and of six entries; a locked fourth entry; DETACHED; met as cast; an absent sixth entry; under SAFE; counts of 0 and of 7. -/
theorem witness_VoteListWritesAllOrNothing : Taking wide 1 ∧ wide.fault.safe = false
    ∧ ((checkEntries wide 1 0 [] (listEntries (BitVec.ofNat 144 (ofBytes [0, 3, 1, 1, 3, 1, 2, 3, 255, 5, 3, 1, 62, 3, 255, 63, 3, 255])) 6)).toOption.map
          (lockedIndex wide)) = some (some 3)
    ∧ ((checkEntries wide 1 0 [] (listEntries (BitVec.ofNat 144 (ofBytes [1, 3, 20])) 1)).toOption.map (lockedIndex wide)) = some none
    ∧ (match checkEntries wide 1 0 [] (listEntries (BitVec.ofNat 144 (ofBytes [0, 3, 1, 1, 3, 1, 2, 3, 255, 5, 3, 1, 62, 3, 255, 61, 3, 255])) 6) with
        | .ok _ => none
        | .error p => some p) = some (5, .badResource)
    ∧ (Taking detached 1 ∧ isDetached detached 1 = true
        ∧ ((checkEntries detached 1 0 [] (listEntries (BitVec.ofNat 144 (ofBytes [1, 3, 20])) 1)).toOption.map (lockedIndex detached)) = some none)
    ∧ (isDetached wide 1 = false
        ∧ (checkEntries wide 1 0 [] (listEntries (BitVec.ofNat 144 (ofBytes [1, 3, 10])) 1)).toOption.map (fun votes =>
            votes.all fun c => satisfiedAt (writeCells (restartLease wide 1) 1 votes).state c.1 c.2) = some true)
    ∧ (Taking (inSafe rig) 1 ∧ (inSafe rig).fault.safe = true) ∧ (0 : Byte).toNat < 1 ∧ 6 < (7 : Byte).toNat :=
  ⟨by unfold Taking; decide +kernel, by decide +kernel, by decide +kernel, by decide +kernel, by decide +kernel,
    ⟨by unfold Taking; decide +kernel, by decide +kernel⟩, by decide +kernel, ⟨by unfold Taking; decide +kernel, by decide +kernel⟩,
    by decide⟩

theorem witness_VoteListLeavesAWaiter : Taking wide 1 ∧ isDetached wide 1 = false
    ∧ (checkEntries wide 1 0 [] (listEntries (BitVec.ofNat 144 (ofBytes [1, 3, 10, 63, 3, 255])) 2)).toOption.map (fun votes =>
        (lockedIndex wide votes, votes.map fun c => satisfiedAt (writeCells (restartLease wide 1) 1 votes).state c.1 c.2))
      = some (none, [true, false])
    ∧ entryFreeAfter wide (supersededBy wide 1 [1, 63]) = true
    ∧ (Taking (crowd wide) 1 ∧ entryFreeAfter (crowd wide) (supersededBy (crowd wide) 1 [1, 63]) = false) :=
  ⟨by unfold Taking; decide +kernel, by decide +kernel, by decide +kernel, by decide +kernel, by unfold Taking; decide +kernel,
    by decide +kernel⟩

/-- A present cell; all cells; an absent slot; a present slot without a cell. -/
theorem witness_WithdrawDropsCells : Taking rig 1 ∧ (resourceAt rig 1).isSome = true
    ∧ cellAt rig 1 1 = some { level := .on, setpoint := some 10 } ∧ resourceAt rig 254 = none
    ∧ (resourceAt rig 2).isSome = true ∧ cellAt rig 1 2 = none :=
  ⟨witness_taking_own, by decide +kernel⟩

/-- Each outcome of the table in its turn. -/
theorem witness_FenceOutcomes : (Taking (inSafe rig) 1 ∧ (inSafe rig).fault.safe = true)
    ∧ (Taking (after (.vote 1 7 false 0 5 3 7) rig) 1 ∧ (tkeys (cellsOf (after (.vote 1 7 false 0 5 3 7) rig) 1)).any
        (isLockedOut (after (.vote 1 7 false 0 5 3 7) rig)) = true)
    ∧ (Taking detached 1 ∧ (tkeys (cellsOf detached 1)).any (isLockedOut detached) = false ∧ isDetached detached 1 = true)
    ∧ (Taking rig 1 ∧ isDetached rig 1 = false
        ∧ waiterSatisfied rig { domain := 1, tag := 7, body := .fence (tkeys (cellsOf rig 1)), deadline := none } = true)
    ∧ (Taking wanting 1 ∧ isDetached wanting 1 = false ∧ entryFreeAfter wanting [] = true
        ∧ waiterSatisfied wanting { domain := 1, tag := 7, body := .fence (tkeys (cellsOf wanting 1)), deadline := none } = false)
    ∧ (Taking (crowd wanting) 1 ∧ entryFreeAfter (crowd wanting) [] = false
        ∧ waiterSatisfied (crowd wanting) { domain := 1, tag := 7, body := .fence (tkeys (cellsOf wanting 1)), deadline := none } = false) := by
  unfold Taking; decide +kernel

theorem witness_PostureChangesItsDomain : Taking rig 1 ∧ isDetached rig 1 = false ∧ [1, 2, 3].map postureOfCode
      = [some .active, some .drowsy, some .detached]
    ∧ postureOfCode 0 = none ∧ postureOfCode 4 = none ∧ Taking detached 1 ∧ isDetached detached 1 = true :=
  ⟨witness_taking_own, by decide +kernel, by decide, by decide, by decide, by unfold Taking; decide +kernel, by decide +kernel⟩

theorem witness_QueryReportsTheTables : Taking rig 1 ∧ (resourceAt rig 1).isSome = true ∧ resourceAt rig 9 = none
    ∧ (resourceAt rig 2).map Resource.setpoint = some none :=
  ⟨witness_taking_own, by decide +kernel⟩

theorem witness_FreshQueryPlacesOneRequest : (Taking rig 1 ∧ (resourceAt rig 1).map Resource.level = some .on ∧ isLockedOut rig 1 = false
      ∧ isDetached rig 1 = false ∧ entryFreeAfter rig [] = true)
    ∧ (Taking (crowd rig) 1 ∧ (resourceAt (crowd rig) 1).map Resource.level = some .on ∧ isLockedOut (crowd rig) 1 = false
      ∧ isDetached (crowd rig) 1 = false ∧ entryFreeAfter (crowd rig) [] = false)
    ∧ (resourceAt rig 2).map Resource.level = some .off ∧ isLockedOut rig 5 = true
    ∧ (Taking detached 1 ∧ (resourceAt detached 1).map Resource.level = some .on ∧ isLockedOut detached 1 = false
      ∧ isDetached detached 1 = true) := by unfold Taking; decide +kernel

/-- Entries 31 and 32; valid, invalid and badly formed contents. -/
theorem witness_GrantAndRevokeReplaceOneEntry : Taking rig 0 ∧ (∀ d, tsorted (cellsOf rig d) = true) ∧ (31 : Byte).toNat ≤ 31
    ∧ grantContents (BitVec.ofNat 64 (ofBytes [1, 1, 0, 0, 2, 20]))
      = some (some { domain := 1, idBase := 0, idMask := 0, maxLevel := .retain, cap := 20 })
    ∧ grantContents 0 = some none ∧ 31 < (32 : Byte).toNat ∧ grantContents 1 = none
    ∧ (tget rig.grants 0).map Grant.domain = some 1 :=
  ⟨witness_taking_admin, by decide +kernel⟩

/-- Waiters of D1 that its POSTURE to DETACHED ends, and those that the loss of the gate's cell ends. -/
theorem witness_detached_revoked : AllWait (manyWaiters wanting) ∧ (Taking (manyWaiters wanting) 1 ∧ isDetached (manyWaiters wanting) 1 = false)
    ∧ Taking (manyWaiters wanting) 0 ∧ (cellAt (manyWaiters wanting) 1 2).isSome = true
    ∧ cellAt (after (.revoke 0 7 0) (manyWaiters wanting)) 1 2 = none
    ∧ ((manyWaiters wanting).waiters.map fun e => covers e.2 2) = [true, true, true, false, true, false, false] :=
  ⟨by unfold AllWait; decide +kernel, by unfold Taking; decide +kernel, by unfold Taking; decide +kernel, by decide +kernel, by decide +kernel,
    by decide +kernel⟩

/-- Weights 0, 1, 8 and 9, targets 0 and 8, enable 2; an enabled target, a disabled one and a HALTED one. -/
theorem witness_SetDomainDisablesAndEnables : Taking rig 0 ∧ 1 ≤ (1 : Byte).toNat ∧ (8 : Byte).toNat ≤ 8 ∧ (1 : Domain) ≠ 0
    ∧ (domainAt rig 1).enabled = true ∧ (queueAt rig 1).state = .enabled
    ∧ ((domainAt rig 2).enabled = false ∧ ∀ e ∈ rig.waiters, e.2.domain ≠ 2)
    ∧ (Taking (after (.sqTail 1 4) waiting) 0 ∧ (queueAt (after (.sqTail 1 4) waiting) 1).state ≠ .enabled
        ∧ ∀ e ∈ (after (.sqTail 1 4) waiting).waiters, e.2.domain ≠ 1)
    ∧ (domainAt detached 1).posture = some .detached
    ∧ (0 : Byte).toNat = 0 ∧ 7 < (8 : Byte).toNat ∧ (0 : Byte).toNat < 1 ∧ 8 < (9 : Byte).toNat ∧ 1 < (2 : Byte).toNat :=
  ⟨witness_taking_admin, by decide, by decide, by decide, by decide +kernel, by decide +kernel, by decide +kernel,
    by unfold Taking; decide +kernel, by decide +kernel⟩

/-- Each outcome of the table in its turn. -/
theorem witness_ClearFaultOutcomes : (Taking rig 0 ∧ (resourceAt rig 5).map Resource.cond = some .locked ∧ onCutList rig 5 = false
      ∧ isDetached rig 0 = false ∧ entryFreeAfter rig [] = true)
    ∧ resourceAt rig 9 = none ∧ (resourceAt rig 1).map Resource.cond = some .steady
    ∧ (Taking cutting 0 ∧ (resourceAt cutting 1).map Resource.cond = some .locked ∧ onCutList cutting 1 = true)
    ∧ (Taking (after (.posture 0 7 3) rig) 0 ∧ isDetached (after (.posture 0 7 3) rig) 0 = true
      ∧ (resourceAt (after (.posture 0 7 3) rig) 5).map Resource.cond = some .locked)
    ∧ (Taking (crowd rig) 0 ∧ isDetached (crowd rig) 0 = false ∧ entryFreeAfter (crowd rig) [] = false) := by unfold Taking; decide +kernel

theorem witness_ClearSafeOutcomes : (Taking (inSafe dark) 0 ∧ (inSafe dark).fault.safe = true
      ∧ (∀ e ∈ (inSafe dark).resources, e.2.level = .off) ∧ (inSafe dark).steps = [] ∧ (inSafe dark).fault.cutList = [])
    ∧ (Taking rig 0 ∧ rig.fault.safe = false)
    ∧ (Taking (inSafe rig) 0 ∧ (inSafe rig).fault.safe = true ∧ ∃ e ∈ (inSafe rig).resources, e.2.level ≠ .off)
    ∧ (Taking (inSafe placed) 0 ∧ (inSafe placed).steps ≠ []) ∧ (Taking (inSafe cutting) 0 ∧ (inSafe cutting).fault.cutList ≠ []) := by
  unfold Taking; decide +kernel

theorem witness_ReleaseHoldEmptiesHoldCells : Taking (setHolds rig [(0, .on), (1, .on)]) 0
    ∧ (resourceAt (setHolds rig [(0, .on), (1, .on)]) 1).isSome = true ∧ resourceAt (setHolds rig [(0, .on), (1, .on)]) 254 = none := by
  unfold Taking; decide +kernel

/-- Slot 64; the last slot, absent; a present slot of the same kind; one that can be removed; one that fails check 1; one that passes it and has a
child; an accepted configuration of another kind, a refused one and a record that carries none. -/
theorem witness_ConfigResourceChangesTheSlotWhole : Taking rig 0 ∧ (63 : Byte).toNat ≤ 63 ∧ 63 < (64 : Byte).toNat ∧ resourceAt rig 63 = none
    ∧ recordPresent gateRecord = true ∧ recordPresent emptyRecord = false
    ∧ (configOf gateRecord).map
        (fun c => (configAccepted (presentConfigs rig) 63 c, configAccepted (presentConfigs rig) 2 c, c.kind)) = some (true, true, .gate)
    ∧ (resourceAt rig 2).map (fun x => (slotFree rig 2 x, x.cfg.kind)) = some (true, .gate) ∧ slotUnused rig 2 = true
    ∧ (resourceAt rig 1).map (slotFree rig 1) = some false
    ∧ (Taking dark 0 ∧ (resourceAt dark 0).map (fun x => (slotFree dark 0 x, x.cfg.kind)) = some (true, .rail) ∧ slotUnused dark 0 = false
      ∧ (configOf gateRecord).map (configAccepted (presentConfigs dark) 0) = some true)
    ∧ (recordPresent (gateRecord + 256 * 6) = true ∧ configOf (gateRecord + 256 * 6) = none)
    ∧ (recordPresent (gateRecord + 2 ^ 125) = true
      ∧ (configOf (gateRecord + 2 ^ 125)).map (configAccepted (presentConfigs rig) 2) = some false) :=
  ⟨witness_taking_admin, by decide +kernel, by decide, by decide +kernel, by decide +kernel, by decide +kernel, by decide +kernel,
    by decide +kernel, by decide +kernel, by decide +kernel, ⟨by unfold Taking; decide +kernel, by decide +kernel⟩, by decide +kernel,
    by decide +kernel⟩

/-- QUERY waiters of the gate that its removal and its configuration end. -/
theorem witness_ConfigResourceChangesTheSlotWhole_query : AllWait (manyWaiters rig) ∧ Taking (manyWaiters rig) 0
    ∧ (resourceAt (manyWaiters rig) 2).map (slotFree (manyWaiters rig) 2) = some true ∧ slotUnused (manyWaiters rig) 2 = true
    ∧ (tget (manyWaiters rig).waiters 4).map (fun w => isQuery w && covers w 2) = some true :=
  ⟨by unfold AllWait; decide +kernel, by unfold Taking; decide +kernel, by decide +kernel, by decide +kernel, by decide +kernel⟩

/-- Indices 3 and 4 of a ring of 4. -/
theorem witness_SqTailMovesOrHalts : rig.run.state = .running ∧ (queueAt rig 1).state = .enabled ∧ (queueAt rig 1).desc = some ring
    ∧ (3 : Byte).toNat < ring.sqSize ∧ ring.sqSize ≤ (4 : Byte).toNat ∧ (inRun .stopping rig).run.state ≠ .running
    ∧ (queueAt rig 2).state ≠ .enabled := by decide +kernel

/-- With one completion written: heads 1, at the tail, 2, past it, and 8, the size. -/
theorem witness_CqHeadReleasesOrHalts : renewed.run.state = .running ∧ (queueAt renewed 1).state = .enabled
    ∧ (queueAt renewed 1).desc = some ring ∧ (queueAt renewed 1).cqTail < ring.cqSize ∧ (queueAt renewed 1).cqHead < ring.cqSize
    ∧ (1 + ring.cqSize - (queueAt renewed 1).cqHead) % ring.cqSize ≤ writtenCount (queueAt renewed 1)
    ∧ writtenCount (queueAt renewed 1) < (2 + ring.cqSize - (queueAt renewed 1).cqHead) % ring.cqSize
    ∧ ring.cqSize ≤ (8 : Byte).toNat ∧ (inRun .stopping rig).run.state ≠ .running ∧ (queueAt rig 2).state ≠ .enabled := by decide +kernel

/-- With one event written, the same heads; and a DISABLED ring. -/
theorem witness_EventHeadReleasesOrDisables : rig.run.state = .running ∧ (after (.leaseExpiry 1) expired).run.state = .running
    ∧ (after (.leaseExpiry 1) expired).events.enabled = true
    ∧ (after (.leaseExpiry 1) expired).events.desc.map EventDescriptor.size = some 8
    ∧ (after (.leaseExpiry 1) expired).events.tail = 1 ∧ (after (.leaseExpiry 1) expired).events.head = 0
    ∧ (1 + 8 - 0) % 8 ≤ (1 + 8 - 0) % 8 ∧ (1 + 8 - 0) % 8 < (2 + 8 - 0) % 8 ∧ 8 ≤ (8 : Byte).toNat
    ∧ (inRun .stopping rig).run.state ≠ .running ∧ State.reset.events.enabled = false := by decide +kernel

/-- The current domain goes on; the next one is the first after it; the current one comes last of eight; each reset and a load. -/
theorem witness_IntakeGrantIsWeightedRoundRobin :
    ((setIntake pendingThree { current := 1, turn := 0, fetch := none }).intake.fetch = none
      ∧ intakeEligible (setIntake pendingThree { current := 1, turn := 0, fetch := none }) 1 = true
      ∧ (domainAt pendingThree 1).weight = 1)
    ∧ (pendingThree.intake.fetch = none ∧ intakeEligible pendingThree pendingThree.intake.current = false
      ∧ intakeEligible pendingThree (Fin.ofNat 8 (pendingThree.intake.current.val + 1)) = true)
    ∧ (intakeEligible (setIntake pendingThree { current := 1, turn := 1, fetch := none }) (Fin.ofNat 8 (1 + 8)) = true
      ∧ ∀ m, 1 ≤ m → m < 8 → intakeEligible (setIntake pendingThree { current := 1, turn := 1, fetch := none }) (Fin.ofNat 8 (1 + m)) = false)
    ∧ State.reset.run.state = .stopped ∧ (queueAt pendingThree 1).desc = some ring
    ∧ (loadingBody.host.loadReads[0]? = some { part := .body, addr := 32, live := true } ∧ bodyError loadingBody.run.loadHeader block = none) := by
  refine ⟨by decide +kernel, by decide +kernel, ⟨by decide +kernel, ?_⟩, by decide +kernel, by decide +kernel, by decide +kernel⟩
  have h : ∀ m : Fin 8, 1 ≤ m.val →
      intakeEligible (setIntake pendingThree { current := 1, turn := 1, fetch := none }) (Fin.ofNat 8 (1 + m.val)) = false := by
    decide +kernel
  exact fun m h1 h2 => h ⟨m, h2⟩ h1

/-- A fetch that stands and one that is void; a command code and a code that is none. -/
theorem witness_FetchedEntryIsTakenAsItsRow : fetching.intake.fetch = some { domain := 1, index := 0, addr := 0x100, void := false }
    ∧ (voidFetch fetching 1).intake.fetch = some { domain := 1, index := 0, addr := 0x100, void := true } ∧ (queueAt fetching 1).desc = some ring
    ∧ canHandOver (setQueue (setIntake fetching { fetching.intake with fetch := none }) 1 { queueAt fetching 1 with sqHead := 1 }) 1 = true
    ∧ entryRow 1 (BitVec.ofNat 256 (ofBytes [5, 0, 3, 0])) = some (.renew 1 3) ∧ entryRow 1 (BitVec.ofNat 256 (ofBytes [8, 0, 3, 0])) = none
    ∧ fetching.run.state = .running := by decide +kernel

theorem witness_FetchBusErrorHaltsTheQueue : fetching.intake.fetch = some { domain := 1, index := 0, addr := 0x100, void := false }
    ∧ (voidFetch fetching 1).intake.fetch = some { domain := 1, index := 0, addr := 0x100, void := true } ∧ tsorted fetching.waiters = true := by
  decide +kernel

/-- The record and the message of a completion, the record of an event, and a write of a queue that has halted. -/
theorem witness_WriteOutcomes :
    (renewed.host.writes.map fun w => (decide (w.owner = .queue 1), w.live)) = [(true, true), (true, true)]
    ∧ ((after (.leaseExpiry 1) (inSafe expired)).host.writes.map fun w => decide (w.owner = .events)).contains true = true
    ∧ ((after (.sqTail 1 4) renewed).host.writes.map fun w => (decide (w.owner = .queue 1), w.live)).take 2 = [(true, false), (true, false)] := by
  decide +kernel

/-- Armed with the tail at 0; the last index of the ring; a DISABLED queue. -/
theorem witness_PostingACompletion : (queueAt rig 1).state = .enabled ∧ (queueAt rig 1).desc = some ring ∧ (queueAt rig 1).armed = true
    ∧ (queueAt (setQueue rig 1 { queueAt rig 1 with cqTail := 7, cqHead := 5, armed := false }) 1).state = .enabled
    ∧ ¬ (queueAt (setQueue rig 1 { queueAt rig 1 with cqTail := 7, cqHead := 5, armed := false }) 1).cqTail + 1 < ring.cqSize
    ∧ (queueAt rig 2).state ≠ .enabled := by decide +kernel

/-- Room in the ring; the last index, with room; a full ring; a DISABLED one. -/
theorem witness_HandingAnEvent : rig.events.enabled = true ∧ rig.events.desc.map EventDescriptor.size = some 8
    ∧ (rig.events.tail + 8 - rig.events.head) % 8 ≠ 8 - 1 ∧ (7 + 8 - 1) % 8 ≠ 8 - 1 ∧ (7 + 8 - 0) % 8 = 8 - 1
    ∧ State.reset.events.enabled = false := by decide +kernel

/-- Three steps of the clock, to take the first three slots. -/
def threeTaken : State :=
  setSteps wanting ([0, 1, 2].map fun k => (k, { resource := 5, direction := .lower, purpose := .normal, origin := { level := .off, setpoint := none }
                                                 goal := { level := .off, setpoint := none }, retries := 0, early := false, state := .holding 1 }))

/-- The first slot free; the last one; no eligible move. -/
theorem witness_AllocationPlacesTheFirstMove : tsorted wanting.resources = true ∧ stepAt wanting 0 = none ∧ eligibleMoves wanting ≠ []
    ∧ stepAt threeTaken 3 = none ∧ (∀ j : Fin 3, (stepAt threeTaken j.val).isSome = true) ∧ eligibleMoves threeTaken ≠ []
    ∧ eligibleMoves rig = [] := by decide +kernel

/-- The settle timer; the last attempt ending in a timeout and in a NAK. -/
theorem witness_StepsThatFailLockTheirResource : (stepAt settling 0).map (fun st => (st.resource, st.state)) = some (2, .settling 15)
    ∧ (resourceAt settling 2).map Resource.cond = some .stepping
    ∧ (stepAt lastTry 0).map (fun st => (st.resource, st.retries)) = some (2, 1)
    ∧ (resourceAt lastTry 2).map (fun x => (x.cond, x.cfg.retryLimit)) = some (.stepping, 1)
    ∧ lastTry.link.transaction.map (fun tr => (tr.requester, tr.endpoint, tr.channel)) = some (some (.step 0), 2, 1)
    ∧ answerOf gateNak = some (2, 1, .nak 4) := by decide +kernel

/-- The waiters of the gate as its step fails, under each policy that its fault can meet. -/
theorem witness_StepsThatFailLockTheirResource_waiters : AllWait (manyWaiters settling)
    ∧ ((manyWaiters settling).waiters.map fun e => covers e.2 2 && !isClear e.2) = [true, true, true, false, true, false, false]
    ∧ (resourceAt settling 2).map (fun x => x.cfg.policy) = some .report
    ∧ (settling.fault.safe = false
      ∧ (resourceAt (setResources settling (tmap (fun _ x => { x with cfg := { x.cfg with policy := .trip } }) settling.resources)) 2).map
        (fun x => (x.cond, x.cfg.policy)) = some (.stepping, .trip)) := by unfold AllWait; decide +kernel

/-- As the gate's step ends at ON, its VOTE waiter and D1's FENCE waiter are satisfied, and the others are not. -/
theorem witness_HoldExpiryEndsTheStep_waiters : AllWait (manyWaiters held) ∧ tsorted (manyWaiters held).waiters = true
    ∧ (resourceAt (manyWaiters held) 2).map Resource.cond = some .stepping
    ∧ (stepAt (manyWaiters held) 0).map Step.state = some (.holding 2)
    ∧ ((manyWaiters held).waiters.map fun e => covers e.2 2 && waiterSatisfied (after (.holdExpiry 0) (manyWaiters held)) e.2)
      = [true, false, true, false, false, false, false] := by unfold AllWait; decide +kernel

/-- R154, 11.2: after the DONE of the VOTE that is long taken, the VOTE and FENCE waiters complete SATISFIED, and the list, which also asks for
the locked clock, waits on. -/
theorem test_holdExpiry_satisfied : ((recordsOf (after (.holdExpiry 0) (manyWaiters held)) (.queue 1)).map fun r => r.take 3)
      = [[0x01, 0x80, 7], [0x01, 0x81, 7], [0x07, 0x81, 9]]
    ∧ tkeys (after (.holdExpiry 0) (manyWaiters held)).waiters = [1, 3, 4, 5, 6] := by decide +kernel

theorem witness_HoldExpiryEndsTheStep : (stepAt holding 0).map (fun st => (st.resource, st.state)) = some (2, .holding 2)
    ∧ (resourceAt holding 2).map Resource.cond = some .stepping ∧ (targetOf holding 2).isSome = true := by decide +kernel

/-- A step granted before an older CLEAR; a Cut List entry, a CLEAR and a SAMPLE; the link BUSY; no request. -/
theorem witness_LinkGrantServesTheHighestClass :
    (crossing.link.transaction = none ∧ crossing.link.requests.map Request.requester = [.clear 5, .step 0]
      ∧ classRank (classOf (.step 0)) < classRank (classOf (.clear 5)) ∧ (resourceAt crossing 2).isSome = true
      ∧ crossing.link.requests.map Request.resource = [5, 2] ∧ (stepAt crossing 0).map Step.resource = some 2)
    ∧ (after .noticeTake (after (.noticeArrival [0x02, 0xD0, 0x01, 0xD3]) rig)).link.requests = [{ requester := .cutList, resource := 1 }]
    ∧ clearing.link.requests = [{ requester := .clear 5, resource := 5 }]
    ∧ (after (.query 1 7 true 0 1) rig).link.requests = [{ requester := .query 0, resource := 1 }]
    ∧ clearing.link.transaction = none ∧ issued.link.transaction ≠ none ∧ rig.link.requests = [] := by decide +kernel

theorem witness_AckTakesTheStepOn :
    issued.link.transaction.map (fun tr => (tr.kind, tr.requester, tr.endpoint, tr.channel)) = some (.set, some (.step 0), 2, 1)
    ∧ (stepAt issued 0).map Step.early = some false ∧ answerOf gateAck = some (2, 1, .ack)
    ∧ earlySettled.link.transaction.map (fun tr => (tr.kind, tr.requester, tr.endpoint, tr.channel)) = some (.set, some (.step 0), 2, 1)
    ∧ (stepAt earlySettled 0).map Step.early = some true ∧ (resourceAt earlySettled 2).map (fun x => x.cfg.hold) = some 2 := by decide +kernel

/-- A first attempt, ending in a timeout and in a NAK, outside SAFE, under SAFE and in STOPPING; each failed test of R99; the link IDLE. -/
theorem witness_TimeoutsAndBadAnswers :
    issued.link.transaction.map (fun tr => (tr.kind, tr.requester, tr.endpoint, tr.channel)) = some (.set, some (.step 0), 2, 1)
    ∧ (stepAt issued 0).map Step.retries = some 0 ∧ (resourceAt issued 2).map (fun x => x.cfg.retryLimit) = some 1
    ∧ issued.fault.safe = false ∧ issued.run.state ≠ .stopping ∧ answerOf gateNak = some (2, 1, .nak 4)
    ∧ ((stepAt (inSafe issued) 0).map fun st => (risesTowards st, st.retries, st.resource)) = some (true, 0, 2)
    ∧ (resourceAt (inSafe issued) 2).map (fun x => (x.cond, x.cfg.retryLimit)) = some (.stepping, 1)
    ∧ (inSafe issued).link.transaction.map Transaction.requester = some (some (.step 0)) ∧ (inSafe issued).fault.safe = true
    ∧ (inRun .stopping issued).run.state = .stopping
    ∧ answerOf [0x02, 0x81, 0x82] = none ∧ answerOf [0x02, 0x80, 0x82] = some (2, 0, .ack)
    ∧ (answerOf (dataOf 2)).isSome = true ∧ sampling.link.transaction.map Transaction.kind = some .sample ∧ rig.link.transaction = none := by
  decide +kernel

/-- A first attempt, and a last one. -/
theorem witness_CutListGoesOnFromItsFront :
    cutting.link.transaction.map (fun tr => (tr.kind, tr.requester, tr.endpoint, tr.channel)) = some (.set, some .cutList, 2, 0)
    ∧ cutting.fault.cutList = [{ resource := 1, attempts := 0 }] ∧ (resourceAt cutting 1).map (fun x => x.cfg.retryLimit) = some 1
    ∧ (setFault cutting { cutting.fault with cutList := [{ resource := 1, attempts := 1 }, { resource := 0, attempts := 0 }] }).fault.cutList
      = { resource := 1, attempts := 1 } :: [{ resource := 0, attempts := 0 }]
    ∧ answerOf [0x02, 0x80, 0x82] = some (2, 0, .ack) ∧ answerOf [0x02, 0x90, 0x04, 0x96] = some (2, 0, .nak 4) := by decide +kernel

theorem witness_ClearsEndOrFail :
    clearSent.link.transaction.map (fun tr => (tr.kind, tr.requester, tr.endpoint, tr.channel)) = some (.clear, some (.clear 5), 3, 0)
    ∧ tget clearSent.fault.clears 5 = some 0 ∧ (resourceAt clearSent 5).map (fun x => (x.cond, x.cfg.retryLimit)) = some (.clearing, 1)
    ∧ tget (setFault clearSent { clearSent.fault with clears := [(5, 1)] }).fault.clears 5 = some 1
    ∧ answerOf [0x03, 0x80, 0x83] = some (3, 0, .ack) ∧ answerOf [0x03, 0x90, 0x04, 0x97] = some (3, 0, .nak 4) := by decide +kernel

/-- As the clock's CLEAR is acknowledged, its CLEAR waiter is done, D0's VOTE of OFF is satisfied and the list is not. -/
theorem witness_ClearsEndOrFail_waiters : AllWait (manyWaiters clearSent) ∧ tsorted (manyWaiters clearSent).waiters = true
    ∧ ((manyWaiters clearSent).waiters.map fun e => covers e.2 5) = [false, true, false, false, false, true, true]
    ∧ ((manyWaiters clearSent).waiters.map fun e => waiterSatisfied (after (.answer [0x03, 0x80, 0x83]) (manyWaiters clearSent)) e.2)
      = [false, false, false, false, false, false, true] := by unfold AllWait; decide +kernel

/-- R92, R155, 11.2: DONE of the CLEAR_FAULT and SATISFIED of the VOTE. -/
theorem test_answer_clearAcked : ((recordsOf (after (.answer [0x03, 0x80, 0x83]) (manyWaiters clearSent)) (.queue 0)).map fun r => r.take 3)
    = [[0x13, 0x80, 12], [0x01, 0x81, 13]] := by decide +kernel

/-- A QUERY's SAMPLE and the poller's, with an attempt left; DATA without a flag. -/
theorem witness_SamplesAreRecordedOrRetried :
    (sampling.link.transaction.map (fun tr => (tr.kind, tr.requester, tr.endpoint, tr.channel)) = some (.sample, some (.query 0), 2, 0)
    ∧ (tget sampling.waiters 0).map Waiter.body = some (.query 1 0)) ∧ ((resourceAt sampling 1).map (fun x => x.cfg.retryLimit) = some 1
    ∧ (queueAt sampling 1).state = .enabled ∧ (queueAt sampling 1).desc = some ring
    ∧ answerOf (dataOf 2) = some (2, 0, .data { voltage := 3, current := 0, flags := noFlags }))
    ∧ ( polled.link.transaction.map (fun tr => (tr.kind, tr.requester, tr.endpoint, tr.channel)) = some (.sample, some .poller, 1, 0)
    ∧ polled.link.currentPoll = some { resource := 0, attempts := 0 } ∧ (resourceAt polled 0).map (fun x => x.cfg.retryLimit) = some 1
    ∧ answerOf (dataOf 1) = some (1, 0, .data { voltage := 3, current := 0, flags := noFlags })) := by decide +kernel

/-- DATA with a flag; a QUERY and a poll with no attempt left; a SAMPLE without a requester, in RUNNING, STOPPING and ALIGNING. -/
theorem witness_SamplesAreRecordedOrRetried_ends :
    (answerOf hotData = some (2, 0, .data { voltage := 3, current := 0, flags := { noFlags with overcurrent := true } })
      ∧ faultKindOfFlags { noFlags with overcurrent := true } = some .overcurrent)
    ∧ ((tget lastSampling.waiters 0).map Waiter.body = some (.query 1 1)
      ∧ lastSampling.link.transaction.map Transaction.requester = some (some (.query 0)))
    ∧ lastPolled.link.currentPoll = some { resource := 0, attempts := 1 }
    ∧ ((orphaned.link.transaction.map fun tr => (tr.kind, tr.requester, tr.resource, tr.cls, tr.voided))
        = some (.sample, none, 1, .sample, false)
    ∧ (resourceAt orphaned 1).isSome = true ∧ orphaned.run.state = .running ∧ (inRun .stopping orphaned).run.state = .stopping
    ∧ (inRun .aligning orphaned).run.state ≠ .running ∧ (inRun .aligning orphaned).run.state ≠ .stopping) := by decide +kernel

/-- No frame in reception; one with credit, one without; STOPPED, LOADING and RUNNING; a good frame and a bad one. -/
theorem witness_NoticeFramesAreCredited : rig.link.receiving = none ∧ (after .noticeFrameStart rig).link.receiving = some true
    ∧ (after .noticeFrameStart (setLink rig { rig.link with notices := List.replicate 16 { endpoint := 2, channel := 1, kind := .settled } })).link.receiving
      = some false
    ∧ (after .noticeFrameStart State.reset).link.receiving = some true ∧ (inRun .loading rig).run.state = .loading
    ∧ rig.run.state ≠ .stopped ∧ rig.run.state ≠ .loading
    ∧ noticeOf [0x02, 0xC1, 0xC3] = some { endpoint := 2, channel := 1, kind := .settled } ∧ noticeOf [0x02, 0xC1, 0xC2] = none := by
  decide +kernel

/-- The law of steps holds with a step in each state. -/
theorem witness_noticed_lawful : ResourceLaw (noticed settling .settled) ∧ ResourceLaw (noticed settlingFast .settled)
    ∧ ResourceLaw (noticed issued .settled) ∧ ResourceLaw (noticed placed .settled) ∧ ResourceLaw (noticed holding .settled) := by
  refine ⟨?_, ?_, ?_, ?_, ?_⟩ <;> constructor <;> decide +kernel

/-- As the SETTLED ends the gate's step at ON, its VOTE waiter and D1's FENCE waiter are satisfied, and the others are not. -/
theorem witness_NoticeTakeRoutesTheHead_waiters : AllWait (noticed (manyWaiters settlingFast) .settled)
    ∧ tsorted (noticed (manyWaiters settlingFast) .settled).waiters = true
    ∧ ((manyWaiters rig).waiters.map fun e =>
        covers e.2 2 && waiterSatisfied (after .noticeTake (noticed (manyWaiters settlingFast) .settled)) e.2)
      = [true, false, true, false, false, false, false] := by unfold AllWait; decide +kernel

/-- No slot; no step; a step in each state, in SETTLING with a hold and with none; an ALERT at OFF, of the policy REPORT, of the policy CUT at ON, and
without flags. -/
theorem witness_NoticeTakeRoutesTheHead : slotCarrying rig 9 0 = none
    ∧ (noticed settling .settled).link.notices = [{ endpoint := 2, channel := 1, kind := .settled }]
    ∧ slotCarrying settling 2 1 = some 2 ∧ (resourceAt settling 2).map (fun x => x.cfg.hold) = some 2
    ∧ (resourceAt settlingFast 2).map (fun x => x.cfg.hold) = some 0 ∧ (targetOf settlingFast 2).isSome = true
    ∧ hasStep rig 2 = false
    ∧ (stepAt settling 0).map (fun st => (st.resource, st.state)) = some (2, .settling 15)
    ∧ (stepAt issued 0).map (fun st => (st.resource, st.state)) = some (2, .issued)
    ∧ (stepAt placed 0).map (fun st => (st.resource, st.state)) = some (2, .awaitingLink)
    ∧ (stepAt holding 0).map (fun st => (st.resource, st.state)) = some (2, .holding 2)
    ∧ (noticed rig (.alert { noFlags with overtemp := true })).link.notices
      = [{ endpoint := 2, channel := 1, kind := .alert { noFlags with overtemp := true } }]
    ∧ slotCarrying rig 2 1 = some 2 ∧ faultKindOfFlags { noFlags with overtemp := true } = some .overtemp
    ∧ (resourceAt rig 2).map (fun x => (x.level, x.cfg.policy)) = some (.off, .report) ∧ slotCarrying rig 3 0 = some 5
    ∧ (resourceAt rig 5).map Resource.cond = some .locked
    ∧ slotCarrying rig 2 0 = some 1 ∧ (resourceAt rig 1).map (fun x => (x.level, x.cond, x.cfg.policy)) = some (.on, .steady, .cut) := by
  decide +kernel

/-- The period timer with and without a poll pending; the first resource that qualifies, from the last slot around to slot 0; none; a retry. -/
theorem witness_PollsTakeResourcesInTurn : polling.link.pollTimer = some 1000 ∧ polling.link.pollPending = true
    ∧ (setLink rig { rig.link with pollTimer := some 0 }).link.pollPending = false
    ∧ polling.link.transaction = none ∧ polling.link.requests = [{ requester := .poller, resource := 0 }] ∧ polling.link.currentPoll = none
    ∧ pollable polling ((0 + 0) % 64) = true ∧ (resourceAt polling 0).isSome = true
    ∧ pollable (setLink polling { polling.link with cursor := 63 }) ((63 + 0) % 64) = false
    ∧ pollable (setLink polling { polling.link with cursor := 63 }) ((63 + 1) % 64) = true
    ∧ (∀ i : Fin 64, pollable dark ((0 + i.val) % 64) = false)
    ∧ (after .responseTimeout polled).link.transaction = none
    ∧ (after .responseTimeout polled).link.requests = [{ requester := .poller, resource := 0 }]
    ∧ (after .responseTimeout polled).link.currentPoll = some { resource := 0, attempts := 1 } := by decide +kernel

/-- Policy CUT; policy REPORT at a step fault; policy TRIP under SAFE. -/
theorem witness_LockCollapsesTheTreeBelow :
    (resourceAt rig 1).map (fun x => (x.cond, x.level, x.cfg.policy)) = some (.steady, .on, .cut)
    ∧ (resourceAt settling 2).map (fun x => (x.cond, x.cfg.policy)) = some (.stepping, .report) ∧ FaultClass.step ≠ .condition
    ∧ (resourceAt (inSafe rig) 0).map (fun x => (x.cond, x.level, x.cfg.policy)) = some (.steady, .on, .trip)
    ∧ (inSafe rig).fault.safe = true ∧ descendantsOf rig 0 = [1, 2] := by decide +kernel

/-- Below the rail, the gate at OFF, whose step had sent its SET or had not; beside it the root and the clock; the waiters that cover the rail. -/
theorem witness_LockCollapsesTheTreeBelow_cut : descendantsOf issued 1 = [2]
    ∧ (resourceAt issued 2).map (fun x => (x.cond, x.level)) = some (.stepping, .off)
    ∧ (stepAt issued 0).map (fun st => (st.resource, hasSentSet st)) = some (2, true)
    ∧ (stepAt placed 0).map (fun st => (st.resource, hasSentSet st)) = some (2, false)
    ∧ (resourceAt issued 1).map (fun x => (x.cond, x.level, x.cfg.policy)) = some (.steady, .on, .cut)
    ∧ (resourceAt issued 5).map Resource.cond = some .locked ∧ AllWait (manyWaiters issued)
    ∧ ((manyWaiters issued).waiters.map fun e => covers e.2 1) = [false, false, true, true, false, false, false] := by
  unfold AllWait; decide +kernel

/-- R79, R80: the gate goes on the Cut List after the rail only if its step had sent its SET. -/
theorem test_lock_cutList : (takeFault issued 1 .overtemp .condition noFlags 0).fault.cutList.map CutEntry.resource = [1, 2]
    ∧ (takeFault placed 1 .overtemp .condition noFlags 0).fault.cutList.map CutEntry.resource = [1] := by decide +kernel

theorem witness_TripFaultEntersSafe : (resourceAt rig 0).map (fun x => (x.cond, x.level, x.cfg.policy)) = some (.steady, .on, .trip)
    ∧ rig.fault.safe = false := by decide +kernel

/-- Below the root, the rail and the gate; beside it, a step that SAFE bars and one that it does not, a gate that owes alignment at OFF, and the
clock; waiters that cover the root and others. -/
theorem witness_TripFaultEntersSafe_others : descendantsOf (beside .awaitingLink) 0 = [1, 2]
    ∧ ((beside .awaitingLink).resources.map fun e => e.2.cond) = [.steady, .steady, .steady, .locked, .stepping, .waiting]
    ∧ (resourceAt (beside .awaitingLink) 63).map (fun x => (x.alignOwed, x.cfg.initial)) = some (true, .off)
    ∧ (stepAt (beside .awaitingLink) 0).map isBarred = some true ∧ (stepAt (beside .issued) 0).map isBarred = some false
    ∧ (resourceAt (beside .issued) 62).map Resource.alignOwed = some false
    ∧ tsorted (beside .awaitingLink).resources = true ∧ hasStep (beside .awaitingLink) 63 = false
    ∧ AllWait (manyWaiters rig) ∧ tsorted (manyWaiters rig).waiters = true
    ∧ (resourceAt (beside .awaitingLink) 0).map (fun x => (x.cond, x.level, x.cfg.policy)) = some (.steady, .on, .trip) := by
  unfold AllWait; decide +kernel

/-- R67, R87: the barred step's gate records the level that its first attempt may have reached, and SAFE_ENTERED comes last. -/
theorem test_trip_barred : (resourceAt (takeFault (beside .awaitingLink) 0 .overtemp .condition noFlags 0) 62).map Resource.level = some .on
    ∧ lastEvent (takeFault (beside .awaitingLink) 0 .overtemp .condition noFlags 0) = some [2, 0, 3, 0, 0] := by decide +kernel

/-- A running lease at 0, with a waiter of its domain; one with time left; each way in which none runs. -/
theorem witness_LeaseExpiryDetaches : expired.run.state = .running ∧ (domainAt expired 1).enabled = true
    ∧ (domainAt expired 1).posture = some .active ∧ (domainAt expired 1).leasePeriod = 1 ∧ (domainAt expired 1).lease = some 0
    ∧ (tget (manyWaiters expired).waiters 0).map Waiter.domain = some 1 ∧ (domainAt (manyWaiters expired) 1).lease = some 0
    ∧ (domainAt rig 1).lease ≠ some 0
    ∧ (inRun .stopping rig).run.state ≠ .running ∧ (domainAt rig 2).enabled = false
    ∧ (domainAt detached 1).posture = some .detached ∧ (domainAt rig 0).lease = none := by decide +kernel

theorem witness_DeadlineExpiryTimesOut : (tget waiting.waiters 0).map (fun w => (w.domain, w.deadline)) = some (1, some 500)
    ∧ (queueAt waiting 1).state = .enabled ∧ (queueAt waiting 1).desc = some ring
    ∧ (tget (after (.query 1 7 true 5 1) rig).waiters 0).map (fun w => (isQuery w, w.deadline)) = some (true, some 500)
    ∧ (after (.query 1 7 true 5 1) rig).link.requests = [{ requester := .query 0, resource := 1 }] := by decide +kernel

end Sys2Proof.Tests
end

section
/-! PROOF. Ring indices, the halting of a queue, and the three NOTIFY kinds of chapter 9: SQ_TAIL (R169), CQ_HEAD (R170), EVENT_HEAD (R179). -/

namespace Sys2Proof.Machine

/-! ## Ring indices -/

/-- Between two indices of a ring, the count takes at most one wrap. -/
theorem ringCount_eq_ite {size tail head : Nat} (ht : tail < size) (hh : head < size) :
    ringCount size tail head = if head ≤ tail then tail - head else tail + size - head := by
  unfold ringCount
  split
  · have hwrap : tail + size - head = tail - head + size := by omega
    rw [hwrap, Nat.add_mod_right, Nat.mod_eq_of_lt (by omega)]
  · exact Nat.mod_eq_of_lt (by omega)

/-- An index reached from the head at or before the tail cuts the entries between them in two (R170). -/
theorem ringCount_add_ringCount {size tail mid head : Nat} (ht : tail < size) (hm : mid < size) (hh : head < size)
    (hle : ringCount size mid head ≤ ringCount size tail head) :
    ringCount size tail mid + ringCount size mid head = ringCount size tail head := by
  rw [ringCount_eq_ite hm hh, ringCount_eq_ite ht hh] at hle
  rw [ringCount_eq_ite ht hm, ringCount_eq_ite hm hh, ringCount_eq_ite ht hh]
  split_ifs at hle ⊢ <;> omega

theorem headGood_iff (size tail head index : Nat) : headGood size tail head index = true ↔
    index < size ∧ ringCount size index head ≤ ringCount size tail head := by
  simp [headGood]

/-- A bad head is no index of the ring, or lies beyond the tail (R170, R179). -/
theorem headGood_eq_false_iff (size tail head index : Nat) : headGood size tail head index = false ↔
    size ≤ index ∨ ringCount size tail head < ringCount size index head := by
  rw [← Bool.not_eq_true, headGood_iff]
  omega

theorem pendingCount_eq_ringCount {q : Queue} {desc : RingDescriptor} (h : q.desc = some desc) :
    pendingCount q = ringCount desc.sqSize q.sqTail q.sqHead := by
  simp [pendingCount, h]

theorem writtenCount_eq_ringCount {q : Queue} {desc : RingDescriptor} (h : q.desc = some desc) :
    writtenCount q = ringCount desc.cqSize q.cqTail q.cqHead := by
  simp [writtenCount, h]

/-- A new head releases as many written completions as lie between the old head and the new one (R170). -/
theorem writtenCount_cqHead_add {q : Queue} {desc : RingDescriptor} (h : q.desc = some desc) (ht : q.cqTail < desc.cqSize)
    (hh : q.cqHead < desc.cqSize) {head : Nat} (hm : head < desc.cqSize)
    (hle : ringCount desc.cqSize head q.cqHead ≤ writtenCount q) :
    writtenCount { q with cqHead := head, armed := true } + ringCount desc.cqSize head q.cqHead = writtenCount q := by
  rw [writtenCount_eq_ringCount h] at hle ⊢
  rw [writtenCount_eq_ringCount (desc := desc) (by exact h)]
  exact ringCount_add_ringCount ht hm hh hle

theorem hasRoom_iff {q : Queue} {desc : RingDescriptor} (h : q.desc = some desc) (held : Nat) :
    hasRoom q held = true ↔ writtenCount q + held + 1 ≤ desc.cqSize - 1 := by
  simp [hasRoom, h]

/-- R171, read as a proposition. -/
theorem intakeEligible_iff (s : State) (d : Domain) : intakeEligible s d = true ↔ s.run.state = .running
    ∧ (queueAt s d).state = .enabled ∧ pendingCount (queueAt s d) ≠ 0 ∧ hasRoom (queueAt s d) (queueAt s d).reservations = true := by
  simp [intakeEligible, and_assoc]

/-! ## Writes, waiters and fetches that count no longer -/

/-- Writes whose outcomes count no longer are still asked (R175). -/
theorem recordsOf_killWrites (s : State) (o o' : WriteOwner) : recordsOf (killWrites s o) o' = recordsOf s o' := by
  have howner : ∀ w : HostWrite, (if w.owner = o then { w with live := false } else w).owner = w.owner := fun w => by split <;> rfl
  have hdata : ∀ w : HostWrite, (if w.owner = o then { w with live := false } else w).data = w.data := fun w => by split <;> rfl
  simp [recordsOf, killWrites, List.filter_map, Function.comp_def, howner, hdata]

theorem killWrites_not_live {s : State} {o : WriteOwner} {w : HostWrite} (hw : w ∈ (killWrites s o).host.writes) (ho : w.owner = o) :
    w.live = false := by
  obtain ⟨v, -, rfl⟩ := List.mem_map.mp hw
  by_cases hv : v.owner = o
  · simp [hv]
  · simp [hv] at ho

theorem tget_dropWaiters (s : State) (ks : List Nat) (j : Nat) :
    tget (ks.foldl dropWaiter s).waiters j = if j ∈ ks then none else tget s.waiters j := by
  induction ks generalizing s with
  | nil => simp
  | cons k ks ih =>
    rw [List.foldl_cons, ih, waiters_dropWaiter, tget_tdel]
    by_cases hks : j ∈ ks <;> by_cases hk : j = k <;> simp [hks, hk]

/-- A waiter that stands after a domain's waiters are discarded stood before and is of another domain (R162). -/
theorem discardWaiters_leaves_others {s : State} {d : Domain} {k : Nat} {w : Waiter}
    (h : tget (discardWaiters s d).waiters k = some w) : w.domain ≠ d ∧ tget s.waiters k = some w := by
  simp only [discardWaiters, setQueue_frame, tget_dropWaiters] at h
  split at h
  · cases h
  · rename_i hk
    refine ⟨fun hd => hk ?_, h⟩
    exact List.mem_map.mpr ⟨(k, w), List.mem_filter.mpr ⟨mem_of_tget h, by simp [hd]⟩, rfl⟩

theorem queueAt_discardWaiters (s : State) (d e : Domain) :
    queueAt (discardWaiters s d) e = if e = d then { queueAt s d with reservations := 0 } else queueAt s e := by
  have hdrop : ∀ g ks, queueAt (List.foldl dropWaiter s ks) g = queueAt s g := fun g _ => queueAt_congr (by simp) g
  simp only [discardWaiters, queueAt_setQueue, hdrop]

theorem voidFetch_void {s : State} {d : Domain} {f : Fetch} (h : (voidFetch s d).intake.fetch = some f) (hd : f.domain = d) :
    f.void = true := by
  obtain ⟨g, -, rfl⟩ := Option.map_eq_some_iff.mp h
  by_cases hg : g.domain = d
  · simp [hg]
  · simp [hg] at hd

/-! ## Handing an event -/

/-- Handing an event reads the event ring, the run time and the writes asked, so an event handed after changes elsewhere is handed as
it would have been before them (R178). -/
theorem eventHanded_handEvent {s t : State} (hev : t.events = s.events) (hrun : t.run = s.run)
    (hrec : recordsOf t .events = recordsOf s .events) (e : Event) : EventHanded s (handEvent t e) e := by
  have hset : ∀ u x, recordsOf (setEvents u x) .events = recordsOf u .events := fun u x => recordsOf_congr (by simp) _
  unfold EventHanded handEvent
  rw [hev, hrun]
  (repeat' split) <;> simp [hset, hrec, recordsOf_askWrite]

/-! ## A queue halt -/

/-- The queue halts with its indices, phase and arm flag standing and its reservations 0; every other queue stands (R176). -/
theorem queueAt_haltQueue (s : State) (d e : Domain) (reason : HaltReason) : queueAt (haltQueue s d reason) e
    = if e = d then { queueAt s d with state := .halted, reservations := 0 } else queueAt s e := by
  have hq : queueAt (haltQueue s d reason) e = queueAt (discardWaiters (setQueue s d { queueAt s d with state := .halted }) d) e :=
    queueAt_congr (by simp [haltQueue]) e
  rw [hq, queueAt_discardWaiters]
  split <;> simp [queueAt_setQueue, *]

theorem haltQueue_leaves_others {s : State} {d : Domain} {reason : HaltReason} {k : Nat} {w : Waiter}
    (h : tget (haltQueue s d reason).waiters k = some w) : w.domain ≠ d ∧ tget s.waiters k = some w := by
  have hdiscard : tget (discardWaiters (setQueue s d { queueAt s d with state := .halted }) d).waiters k = some w := by
    simpa [haltQueue] using h
  simpa using discardWaiters_leaves_others hdiscard

/-- A halt completes nothing: the records of the domain's completion ring are those asked before (R176). -/
theorem recordsOf_haltQueue (s : State) (d e : Domain) (reason : HaltReason) :
    recordsOf (haltQueue s d reason) (.queue e) = recordsOf s (.queue e) := by
  rw [haltQueue, recordsOf_handEvent, recordsOf_killWrites]
  exact recordsOf_congr (by simp) _

theorem haltQueue_voids_fetch {s : State} {d : Domain} {reason : HaltReason} {f : Fetch}
    (h : (haltQueue s d reason).intake.fetch = some f) (hd : f.domain = d) : f.void = true :=
  voidFetch_void (by simpa [haltQueue] using h) hd

/-- A halt hands its QUEUE_ERROR event and no other (R176). -/
theorem eventHanded_haltQueue (s : State) (d : Domain) (reason : HaltReason) :
    EventHanded s (haltQueue s d reason) (plainEvent .queueError d.val (haltReasonCode reason)) := by
  refine eventHanded_handEvent (by simp) (by simp) ?_ _
  rw [recordsOf_killWrites]
  exact recordsOf_congr (by simp) _

/-- What a halt does and what it leaves as it was (R176). -/
theorem haltQueue_effect (s : State) (d : Domain) (reason : HaltReason) :
    let t := haltQueue s d reason
    queueAt t d = { queueAt s d with state := .halted, reservations := 0 }
    ∧ (∀ k w, tget t.waiters k = some w → w.domain ≠ d) ∧ recordsOf t (.queue d) = recordsOf s (.queue d)
    ∧ (∀ f, t.intake.fetch = some f → f.domain = d → f.void = true)
    ∧ EventHanded s t (plainEvent .queueError d.val (haltReasonCode reason)) ∧ t.votes = s.votes ∧ t.domains = s.domains
    ∧ t.resources = s.resources ∧ t.run = s.run :=
  ⟨by simp [queueAt_haltQueue], fun _ _ h => (haltQueue_leaves_others h).1, recordsOf_haltQueue s d d reason,
    fun _ => haltQueue_voids_fetch, eventHanded_haltQueue s d reason, by simp, by simp, by simp, by simp⟩

/-! ## NOTIFY of the kinds SQ_TAIL and CQ_HEAD -/

theorem notifyTaken_iff (s : State) (d : Domain) :
    notifyTaken s d = true ↔ s.run.state = .running ∧ (queueAt s d).state = .enabled := by
  simp [notifyTaken]

/-- A NOTIFY outside RUNNING or for a queue that is not ENABLED is not taken (R168). -/
theorem notifyTaken_eq_false {s : State} {d : Domain} (h : s.run.state ≠ .running ∨ (queueAt s d).state ≠ .enabled) :
    notifyTaken s d = false := by
  rw [← Bool.not_eq_true, notifyTaken_iff]
  tauto

theorem exec_sqTail_not_taken {s : State} {d : Domain} (h : notifyTaken s d = false) (i : Byte) : exec (.sqTail d i) s = .next s := by
  simp [exec, execSqTail, h]

theorem exec_sqTail_taken {s : State} {d : Domain} {desc : RingDescriptor} (h : notifyTaken s d = true)
    (hdesc : (queueAt s d).desc = some desc) (i : Byte) :
    exec (.sqTail d i) s = .next (if desc.sqSize ≤ i.toNat then haltQueue s d .badTail
      else setQueue s d { queueAt s d with sqTail := i.toNat }) := by
  simp [exec, execSqTail, h, hdesc]

theorem exec_cqHead_not_taken {s : State} {d : Domain} (h : notifyTaken s d = false) (i : Byte) : exec (.cqHead d i) s = .next s := by
  simp [exec, execCqHead, h]

theorem exec_cqHead_taken {s : State} {d : Domain} {desc : RingDescriptor} (h : notifyTaken s d = true)
    (hdesc : (queueAt s d).desc = some desc) (i : Byte) :
    exec (.cqHead d i) s = .next (if headGood desc.cqSize (queueAt s d).cqTail (queueAt s d).cqHead i.toNat then
      setQueue s d { queueAt s d with cqHead := i.toNat, armed := true } else haltQueue s d .badHead) := by
  simp [exec, execCqHead, h, hdesc]

/-- A new tail makes an ENABLED queue eligible in RUNNING when commands are pending and the completion ring has room (R169, R171). -/
theorem intakeEligible_setQueue_sqTail {s : State} {d : Domain} {desc : RingDescriptor} (h : notifyTaken s d = true)
    (hdesc : (queueAt s d).desc = some desc) (tail : Nat) :
    let t := setQueue s d { queueAt s d with sqTail := tail }
    intakeEligible t d = true ↔ pendingCount (queueAt t d) ≠ 0
      ∧ writtenCount (queueAt s d) + (queueAt s d).reservations + 1 ≤ desc.cqSize - 1 := by
  obtain ⟨hrun, hstate⟩ := (notifyTaken_iff s d).mp h
  have hroom := hasRoom_iff (q := { queueAt s d with sqTail := tail }) hdesc (queueAt s d).reservations
  intro t
  rw [intakeEligible_iff, queueAt_setQueue, if_pos rfl]
  exact ⟨fun ⟨_, _, hpending, hr⟩ => ⟨hpending, hroom.mp hr⟩, fun ⟨hpending, hr⟩ => ⟨hrun, hstate, hpending, hroom.mpr hr⟩⟩

/-- Settles O36: below the size the tail moves, from the size on the queue halts with BAD_TAIL. -/
theorem sqTailMovesOrHalts : Obligations.SqTailMovesOrHalts := by
  intro s d i
  refine ⟨fun desc hrun hstate hdesc => ?_, fun h => exec_sqTail_not_taken (notifyTaken_eq_false h) i⟩
  have htaken := (notifyTaken_iff s d).mpr ⟨hrun, hstate⟩
  rw [exec_sqTail_taken htaken hdesc]
  constructor
  · intro hi
    rw [if_neg (by omega)]
    refine ⟨_, rfl, rfl, ?_, intakeEligible_setQueue_sqTail htaken hdesc i.toNat, by simp⟩
    rw [queueAt_setQueue, if_pos rfl]
    exact pendingCount_eq_ringCount hdesc
  · intro hi
    rw [if_pos hi]
    exact ⟨_, rfl, haltQueue_effect s d .badTail⟩

/-- Settles O37: a good head cuts the written entries in two, the released and the remaining; a bad one halts the queue with BAD_HEAD. -/
theorem cqHeadReleasesOrHalts : Obligations.CqHeadReleasesOrHalts := by
  intro s d i
  refine ⟨fun desc hrun hstate hdesc htail hhead => ?_, fun h => exec_cqHead_not_taken (notifyTaken_eq_false h) i⟩
  rw [exec_cqHead_taken ((notifyTaken_iff s d).mpr ⟨hrun, hstate⟩) hdesc]
  have hwritten := writtenCount_eq_ringCount hdesc
  constructor
  · intro hi hle
    rw [if_pos ((headGood_iff _ _ _ _).mpr ⟨hi, hwritten ▸ hle⟩)]
    refine ⟨_, rfl, rfl, ?_, by simp⟩
    rw [queueAt_setQueue, if_pos rfl]
    exact writtenCount_cqHead_add hdesc htail hhead hi hle
  · intro hbad
    rw [hwritten] at hbad
    rw [(headGood_eq_false_iff _ _ _ _).mpr hbad]
    exact ⟨_, rfl, haltQueue_effect s d .badHead⟩

/-! ## NOTIFY of the kind EVENT_HEAD -/

theorem exec_eventHead_not_taken {s : State} (h : s.run.state ≠ .running ∨ s.events.enabled = false) (i : Byte) :
    exec (.eventHead i) s = .next s := by
  have hcond : ¬ (s.run.state = .running ∧ s.events.enabled = true) := by
    rintro ⟨hrun, hen⟩
    simp [hrun, hen] at h
  simp [exec, execEventHead, if_neg hcond]

theorem exec_eventHead_taken {s : State} {desc : EventDescriptor} (hrun : s.run.state = .running) (hen : s.events.enabled = true)
    (hdesc : s.events.desc = some desc) (i : Byte) :
    exec (.eventHead i) s = .next (if headGood desc.size s.events.tail s.events.head i.toNat then
      setEvents s { s.events with head := i.toNat, armed := true } else disableEvents s) := by
  simp [exec, execEventHead, hrun, hen, hdesc]

/-- Disabling the event ring writes no record (R180). -/
theorem recordsOf_disableEvents (s : State) (o : WriteOwner) : recordsOf (disableEvents s) o = recordsOf s o := by
  rw [disableEvents, recordsOf_killWrites]
  exact recordsOf_congr (by simp) o

/-- Settles O38: a good head releases entries and re-arms, a bad one disables the event ring. -/
theorem eventHeadReleasesOrDisables : Obligations.EventHeadReleasesOrDisables := by
  intro s i
  refine ⟨fun desc hrun hen hdesc => ?_, fun h => exec_eventHead_not_taken h i⟩
  rw [exec_eventHead_taken hrun hen hdesc]
  constructor
  · intro hi hle
    rw [if_pos ((headGood_iff _ _ _ _).mpr ⟨hi, hle⟩)]
  · intro hbad
    rw [(headGood_eq_false_iff _ _ _ _).mpr hbad]
    exact ⟨_, rfl, by simp [disableEvents], recordsOf_disableEvents s .events, fun _ => killWrites_not_live, rfl⟩

end Sys2Proof.Machine
end
